-- ==== Sys2Proof/Word.lean ====
section
/-! DEFINITION. The words of the block: bytes, command words and raw words (00_scope.md R5, R8). All are unsigned. -/

namespace Sys2Proof

/-- One frame byte, message byte, checksum or running CRC value: a `u8` (R5 `CRC_WIDTH`, `BYTE_BITS`). -/
abbrev Byte := BitVec 8

/-- One command word on the `cmd` port: a `u12` (R5 `CMD_BITS`, R55). -/
abbrev Cmd := BitVec 12

/-- One 16-bit raw word (R5 `WORD_BITS`, R90). -/
abbrev Raw := BitVec 16

end Sys2Proof
end

