-- ==== Sys2Proof/Syntax.lean ====
section
/-! DEFINITION. The seven commands (30_encoding.md R58), one constructor per row of spec/opcode_table.json. -/

namespace Sys2Proof

/-- The commands of R58. A B-format command carries its operand byte `d` (R57). -/
inductive Instr where
  /-- NOP (R100). -/
  | nop
  /-- CRC.INIT (R75). -/
  | crcInit
  /-- CRC.BYTE `d` (R76). -/
  | crcByte (d : Byte)
  /-- CRC.CHK `d` (R77). -/
  | crcChk (d : Byte)
  /-- FRM.START (R86). -/
  | frmStart
  /-- FRM.BYTE `d` (R87, R88). -/
  | frmByte (d : Byte)
  /-- FRM.ABORT (R89). -/
  | frmAbort
  deriving DecidableEq, Repr

/-- Why a command word selects no command (R65). -/
inductive Illegal where
  /-- The opcode is reserved: code 1 (R59). -/
  | opcode
  /-- A Z-format opcode with a non-zero operand field: code 2 (R60). -/
  | operand
  deriving DecidableEq, Repr

end Sys2Proof
end

