-- ==== Sys2Proof/WellFormed.lean ====
section
/-! DEFINITION. When the two fields of a command word are a legal encoding (30_encoding.md R55, R58 to R60). Every
term of `Instr` is well formed by its type (its one operand is a byte, R57); what can be ill formed is a word. -/

namespace Sys2Proof

/-- The nine reserved opcodes (R59). -/
def reservedOpcode (op : BitVec 4) : Bool :=
  (4 ≤ op.toNat && op.toNat ≤ 7) || 11 ≤ op.toNat

/-- The opcodes of the Z-format commands: NOP, CRC.INIT, FRM.START, FRM.ABORT (R55, R60). -/
def zFormatOpcode (op : BitVec 4) : Bool :=
  op == 0x0#4 || op == 0x1#4 || op == 0x8#4 || op == 0xA#4

/-- The fields of a legal encoding: the opcode is not reserved (R59), and a Z-format command has a zero operand
field (R60). -/
def wellFormedFields (op : BitVec 4) (d : Byte) : Bool :=
  !reservedOpcode op && (!zFormatOpcode op || d == 0x00#8)

end Sys2Proof
end

