-- ==== Sys2Proof/Decode.lean ====
section
/-! DEFINITION. Decoding and encoding of command words (30_encoding.md R55 to R61, R65). -/

namespace Sys2Proof

/-- `op = cmd[11:8]` (R56). -/
def opField (w : Cmd) : BitVec 4 := w.extractLsb' 8 4

/-- `d = cmd[7:0]` (R56, R57). -/
def operandField (w : Cmd) : Byte := w.extractLsb' 0 8

/-- The word with the opcode in bits 11 to 8 and the operand field in bits 7 to 0 (R56). -/
def assemble (op : BitVec 4) (d : Byte) : Cmd := op ++ d

/-- A Z-format command stands only with a zero operand field (R60). -/
def zForm (i : Instr) (d : Byte) : Except Illegal Instr :=
  if d = 0x00#8 then .ok i else .error .operand

/-- The decode procedure of R65, total on all 4096 words: the opcode selects the row of R58, a Z-format row demands
a zero operand field, and every other opcode is reserved (R59). It reads no state. -/
def decode (w : Cmd) : Except Illegal Instr :=
  match opField w with
  | 0x0#4 => zForm .nop (operandField w)
  | 0x1#4 => zForm .crcInit (operandField w)
  | 0x2#4 => .ok (.crcByte (operandField w))
  | 0x3#4 => .ok (.crcChk (operandField w))
  | 0x8#4 => zForm .frmStart (operandField w)
  | 0x9#4 => .ok (.frmByte (operandField w))
  | 0xA#4 => zForm .frmAbort (operandField w)
  | _ => .error .opcode

/-- The command word of a command (R58). -/
def encode : Instr → Cmd
  | .nop => assemble 0x0#4 0x00#8
  | .crcInit => assemble 0x1#4 0x00#8
  | .crcByte d => assemble 0x2#4 d
  | .crcChk d => assemble 0x3#4 d
  | .frmStart => assemble 0x8#4 0x00#8
  | .frmByte d => assemble 0x9#4 d
  | .frmAbort => assemble 0xA#4 0x00#8

/-- `match` and `mask` of the row of R58 that a command belongs to: a word `w` selects the row when
`w & mask = match`. -/
def rowOf : Instr → Cmd × Cmd
  | .nop => (0x000#12, 0xFFF#12)
  | .crcInit => (0x100#12, 0xFFF#12)
  | .crcByte _ => (0x200#12, 0xF00#12)
  | .crcChk _ => (0x300#12, 0xF00#12)
  | .frmStart => (0x800#12, 0xFFF#12)
  | .frmByte _ => (0x900#12, 0xF00#12)
  | .frmAbort => (0xA00#12, 0xFFF#12)

/-- The seven `match`, `mask` pairs of R58, in the table's order. -/
def opcodeRows : List (Cmd × Cmd) :=
  [rowOf .nop, rowOf .crcInit, rowOf (.crcByte 0), rowOf (.crcChk 0), rowOf .frmStart, rowOf (.frmByte 0),
    rowOf .frmAbort]

/-- The word `w` selects the row: `w & mask = match` (R58). -/
def selects (w : Cmd) (row : Cmd × Cmd) : Bool := w &&& row.2 == row.1

/-- The command word that a table word of `nbits` bits stands for: its low `nbits` bits, every bit above them zero.
`none` where it does not fit the 12-bit port (R55): no such command exists. -/
def cmdOfTableWord (nbits w : Nat) : Option Cmd :=
  if w % 2 ^ nbits < 2 ^ 12 then some (BitVec.ofNat 12 (w % 2 ^ nbits)) else none

/-- The command the decoder reads from a word numbered as spec/opcode_table.json numbers it: the 12-bit command
word is presented whole, so there is no byte order (R51, R55). `none` where the decoder refuses the word. -/
def decodeTableWord (nbits w : Nat) : Option Instr :=
  match cmdOfTableWord nbits w with
  | none => none
  | some c => (decode c).toOption

end Sys2Proof
end

