-- ==== Sys2Proof/Machine/Crc.lean ====
section
/-! DEFINITION. The CRC-8 function (40_crc_engine.md R70 to R74, R78, R80). Pure and total: it reads no state and
has no invalid input (R74). -/

namespace Sys2Proof.Machine

/-- `POLY` = 0x31 (R5, R73). -/
def poly : Byte := 0x31#8

/-- `INIT` = 0xFF, the running value before the first byte (R5, R72). -/
def crcInitial : Byte := 0xFF#8

/-- One iteration (R70): the top bit is tested before the shift, the polynomial is XORed in after it. -/
def crc8Bit (c : Byte) : Byte :=
  if c.msb then (c <<< 1) ^^^ poly else c <<< 1

/-- `n` iterations of R70. -/
def crc8Bits : Nat → Byte → Byte
  | 0, c => c
  | n + 1, c => crc8Bits n (crc8Bit c)

/-- One byte (R71): XORed whole into the running value, then eight iterations, its bit 7 first (20_memory.md R43). -/
def crc8Byte (c d : Byte) : Byte := crc8Bits 8 (c ^^^ d)

/-- The running value `c` carried over the bytes `m` (the recurrence of R72). -/
def crc8From (c : Byte) : List Byte → Byte
  | [] => c
  | d :: m => crc8From (crc8Byte c d) m

/-- The checksum of a byte sequence (R72). No final XOR, no reflection of the output (R5 `XOROUT`, `REFOUT`). -/
def crc8 (m : List Byte) : Byte := crc8From crcInitial m

/-- The group `[b0, b1, k]` is valid (R78). -/
def groupValid (b0 b1 k : Byte) : Bool := crc8 [b0, b1] == k

/-- The table of R80: `T[x] = crc8_byte(0x00, x)`. -/
def crcTable (x : Byte) : Byte := crc8Byte 0x00#8 x

end Sys2Proof.Machine
end

