-- ==== Sys2Proof/Config.lean ====
section
/-! DEFINITION. The open parameters of the spec (00_scope.md R5). The fixed parameters (polynomial, initial value)
are hardware and stand in Machine/Crc.lean. -/

namespace Sys2Proof

/-- `RAW_T_RESET`, the unspecified content of `raw_t` after a reset (R5, R26, R136): a free 16-bit value, drawn
afresh at each reset. The argument is the number of the draw. DESIGN CHOICE (log 3): an opaque constant, so that
nothing can be proved of its value. -/
opaque Config.rawTReset : Nat → Raw

/-- `RAW_H_RESET`, the unspecified content of `raw_h` after a reset (R5, R26, R136), as `Config.rawTReset`.
DESIGN CHOICE (log 3). -/
opaque Config.rawHReset : Nat → Raw

/-- The default of the host-side parameter `MAX_ATTEMPTS` (R5, R106, D20). No rule of the block reads it; the
host-side functions take the number of attempts as an argument (log 11). -/
def Config.maxAttemptsDefault : Nat := 5

end Sys2Proof
end

