-- ==== Sys2Proof/Machine/State.lean ====
section
/-! DEFINITION. The state of the block (10_state.md R20), the values on its ports (R31, R32), and the state right
after reset (70_reset_and_hazards.md R136). -/

namespace Sys2Proof.Machine

/-- The cause of a protocol fault (60_exceptions.md R116). The unused codes 5, 6 and 7 are never produced, and the
type has no name for them (93_implementation_defined.md S4, log 4). -/
inductive FaultCode where
  /-- Code 0: no fault recorded. -/
  | noFault
  /-- Code 1, ILLEGAL_OPCODE. -/
  | illegalOpcode
  /-- Code 2, ILLEGAL_OPERAND. -/
  | illegalOperand
  /-- Code 3, CRC_BUSY. -/
  | crcBusy
  /-- Code 4, FRM_IDLE. -/
  | frmIdle
  deriving DecidableEq, Repr

/-- What the host puts on the three input ports at one moment (R32). -/
structure Inputs where
  /-- `rst`: reset is asserted (R135). -/
  rst : Bool
  /-- `cmd_valid`: a command is presented. -/
  cmdValid : Bool
  /-- `cmd`: the command word, looked at only with `cmd_valid = 1` and `rst = 0`. -/
  cmd : Cmd
  deriving DecidableEq, Repr

/-- The state: the seventeen elements of R20, and two fields of the model's own (`draw`, `pending`). DESIGN CHOICE
(log 16): R20's sentence says "Total 100 bits" and the widths of its table add up to 99; the fields are the table's. -/
@[ext]
structure State where
  /-- `crc`, the running CRC value (R21). -/
  crc : Byte
  /-- `crc_match`, the result of the last CRC.CHK (R22). -/
  crcMatch : Bool
  /-- `active`: a frame is in progress (R23). -/
  active : Bool
  /-- `idx`, the offset of the next frame byte, 0 to 5 (R24; the type is that of 93_implementation_defined.md S5,
  log 4). -/
  idx : Fin 6
  /-- `stg_t`, the temperature word being assembled (R25). -/
  stgT : Raw
  /-- `stg_h`, the humidity word being assembled (R25). -/
  stgH : Raw
  /-- `raw_t`, the last validated temperature word (R26). -/
  rawT : Raw
  /-- `raw_h`, the last validated humidity word (R26). -/
  rawH : Raw
  /-- `sample_valid`: `raw_t`, `raw_h` hold a validated pair (R27). -/
  sampleValid : Bool
  /-- `done`: a frame has ended since the last FRM.START (R28). -/
  done : Bool
  /-- `ok`: the frame that ended passed both checks (R28). -/
  ok : Bool
  /-- `err_t`: temperature checksum mismatch (R28). -/
  errT : Bool
  /-- `err_h`: humidity checksum mismatch (R28). -/
  errH : Bool
  /-- `err_abort`: the frame was ended by FRM.ABORT (R28). -/
  errAbort : Bool
  /-- `fault`: sticky protocol fault; the block is stopped (R29). -/
  fault : Bool
  /-- `fcode`: the cause of the fault (R29). -/
  fcode : FaultCode
  /-- `fcmd`: the command word that faulted (R29). -/
  fcmd : Cmd
  /-- The MODEL's own: which draw of the unspecified reset words the run stands at (R136, log 3). -/
  draw : Nat
  /-- The MODEL's own: what the host puts on the input ports, oldest first (R7, R102, R112, log 1). -/
  pending : List Inputs
  deriving DecidableEq, Repr

/-- The reasons a step could stop the machine with a fault. There is none: a protocol fault is a next state with
`fault = 1`, and the step function returns a next state for every state and command (60_exceptions.md R128, log 12). -/
inductive Fault
  deriving DecidableEq, Repr

/-- The reasons a step could be refused. -/
inductive Refusal where
  /-- An arm of `exec` whose command has no meaning yet. No arm raises it: all seven commands are modelled. Safe: a
  refused step proves nothing of the block. -/
  | notModelled (mnemonic : String)
  deriving DecidableEq, Repr

/-- The state right after a reset (R136): every element at the value the table gives, `raw_t` and `raw_h` at the
first draw of their unspecified content (log 3), and no host action pending (log 5). -/
def State.reset : State where
  crc := 0xFF#8
  crcMatch := false
  active := false
  idx := 0
  stgT := 0x0000#16
  stgH := 0x0000#16
  rawT := Config.rawTReset 0
  rawH := Config.rawHReset 0
  sampleValid := false
  done := false
  ok := false
  errT := false
  errH := false
  errAbort := false
  fault := false
  fcode := .noFault
  fcmd := 0x000#12
  draw := 0
  pending := []

/-- The eight output ports (R31), the observation of a run (42_system_and_host.md R112). -/
structure Outputs where
  /-- `status` (R30). -/
  status : BitVec 8
  /-- `crc_out`. -/
  crcOut : Byte
  /-- `crc_match`. -/
  crcMatch : BitVec 1
  /-- `idx_out`. -/
  idxOut : BitVec 3
  /-- `raw_t`. -/
  rawT : Raw
  /-- `raw_h`. -/
  rawH : Raw
  /-- `fcode`. -/
  fcode : BitVec 3
  /-- `fcmd`. -/
  fcmd : Cmd
  deriving DecidableEq, Repr

end Sys2Proof.Machine
end

