-- ==== Sys2Proof/Machine/Flags.lean ====
section
/-! DEFINITION. The flag computations and the codes on the ports (10_state.md R22, R28, R30; 60_exceptions.md R116). -/

namespace Sys2Proof.Machine

/-- `crc == d`, the value CRC.CHK writes to `crc_match` (R22, R77). -/
def crcMatches (crc d : Byte) : Bool := crc == d

/-- `crc != d`, the value written to `err_t` at offset 2 and to `err_h` at offset 5 (R28, R87, R88). -/
def checksumDiffers (crc d : Byte) : Bool := crc != d

/-- Both groups passed: the condition of the commit (R88). -/
def framePassed (errT e : Bool) : Bool := !errT && !e

/-- The 3-bit code of a cause (R116). -/
def faultCodeBits : FaultCode → BitVec 3
  | .noFault => 0#3
  | .illegalOpcode => 1#3
  | .illegalOperand => 2#3
  | .crcBusy => 3#3
  | .frmIdle => 4#3

/-- The cause a decode failure raises (R65, R116). -/
def illegalCode : Illegal → FaultCode
  | .opcode => .illegalOpcode
  | .operand => .illegalOperand

/-- The status byte (R30): FAULT, VALID, ERR_ABORT, ERR_H, ERR_T, OK, DONE, BUSY from bit 7 to bit 0. -/
def statusByte (s : State) : BitVec 8 :=
  BitVec.ofBool s.fault ++ BitVec.ofBool s.sampleValid ++ BitVec.ofBool s.errAbort ++ BitVec.ofBool s.errH ++
    BitVec.ofBool s.errT ++ BitVec.ofBool s.ok ++ BitVec.ofBool s.done ++ BitVec.ofBool s.active

end Sys2Proof.Machine
end

