-- ==== Sys2Proof/Machine/Operands.lean ====
section
/-! DEFINITION. How a frame byte enters a 16-bit word: the halves of a staging register (10_state.md R25) and the
big-endian reconstruction (20_memory.md R42, 41_frame_receiver.md R90). -/

namespace Sys2Proof.Machine

/-- Write bits 15 to 8, leave bits 7 to 0 unchanged (R25). -/
def setHigh (w : Raw) (d : Byte) : Raw := d ++ w.extractLsb' 0 8

/-- Write bits 7 to 0, leave bits 15 to 8 unchanged (R25). -/
def setLow (w : Raw) (d : Byte) : Raw := w.extractLsb' 8 8 ++ d

/-- The raw word of two data bytes, the earlier byte in bits 15 to 8 (R42, R90). -/
def rawWord (msb lsb : Byte) : Raw := msb ++ lsb

/-- The two bytes of a 16-bit word, most significant first (30_encoding.md R64 `CRC.WORD`). -/
def bytesOf (w : Raw) : List Byte := [w.extractLsb' 8 8, w.extractLsb' 0 8]

end Sys2Proof.Machine
end

