-- ==== Sys2Proof/Machine/Ops.lean ====
section
/-! DEFINITION. The named operations over the state that the commands share: fault entry and its one way out, the
checks before a command, and the writes of the CRC engine and of the frame receiver. -/

namespace Sys2Proof.Machine

/-- Fault entry (60_exceptions.md R117, R118): the three fault registers are written and nothing else. There is no
handler, no vector and no saved copy. -/
def raiseFault (code : FaultCode) (w : Cmd) (s : State) : State :=
  { s with fault := true, fcode := code, fcmd := w }

/-- The effect of reset (42_system_and_host.md R101, 70_reset_and_hazards.md R136, R137): all seventeen elements
take their reset values together. It is the only way out of a fault (R120). The unspecified words are drawn afresh
(R136, log 3); the host's later actions are not the block's and stay. -/
def resetBlock (s : State) : State :=
  { State.reset with
    rawT := Config.rawTReset (s.draw + 1)
    rawH := Config.rawHReset (s.draw + 1)
    draw := s.draw + 1
    pending := s.pending }

/-- CRC-engine commands are not legal while a frame is in progress: code 3 (R116). -/
def crcBlocked (s : State) : Option FaultCode :=
  if s.active then some .crcBusy else none

/-- FRM.BYTE and FRM.ABORT are not legal while no frame is in progress: code 4 (R116). -/
def frameBlocked (s : State) : Option FaultCode :=
  if s.active then none else some .frmIdle

/-- One decoded command (R121, items 2, 5, 6 and 7): fail-stop first, then the state check, whose fault records the
command's word, then the command's own effect. `blocked` and `after` are computed from the state before the step. -/
def perform (i : Instr) (blocked : Option FaultCode) (after : State) (s : State) :
    Host.Outcome State Fault Refusal :=
  if s.fault then .next s
  else
    match blocked with
    | some code => .next (raiseFault code (encode i) s)
    | none => .next after

/-- The start of a message: `c_0 = 0xFF` (40_crc_engine.md R75). -/
def startMessage (s : State) : State :=
  { s with crc := crcInitial, crcMatch := false }

/-- One message byte (R76). -/
def feedMessage (d : Byte) (s : State) : State :=
  { s with crc := crc8Byte s.crc d, crcMatch := false }

/-- The compare against a received checksum (R77). -/
def checkMessage (d : Byte) (s : State) : State :=
  { s with crcMatch := crcMatches s.crc d }

/-- A frame begins (41_frame_receiver.md R86). -/
def startFrame (s : State) : State :=
  { s with
    active := true
    idx := 0
    crc := crcInitial
    crcMatch := false
    stgT := 0x0000#16
    stgH := 0x0000#16
    done := false
    ok := false
    errT := false
    errH := false
    errAbort := false }

/-- The commit (R88, R91): both words and `sample_valid` in one step. -/
def commitSample (s : State) : State :=
  { s with ok := true, rawT := s.stgT, rawH := s.stgH, sampleValid := true }

/-- The sixth byte (R88): the humidity check, the end of the frame, and the commit when both groups are valid. -/
def endFrame (d : Byte) (s : State) : State :=
  let e := checksumDiffers s.crc d
  let ended := { s with errH := e, active := false, done := true, idx := 0 }
  if framePassed s.errT e then commitSample ended else { ended with ok := false }

/-- One frame byte, by the offset in `idx` (R87; offset 5 is R88). -/
def takeFrameByte (d : Byte) (s : State) : State :=
  match s.idx with
  | 0 => { s with stgT := setHigh s.stgT d, crc := crc8Byte crcInitial d, idx := 1 }
  | 1 => { s with stgT := setLow s.stgT d, crc := crc8Byte s.crc d, idx := 2 }
  | 2 => { s with errT := checksumDiffers s.crc d, idx := 3 }
  | 3 => { s with stgH := setHigh s.stgH d, crc := crc8Byte crcInitial d, idx := 4 }
  | 4 => { s with stgH := setLow s.stgH d, crc := crc8Byte s.crc d, idx := 5 }
  | 5 => endFrame d s

/-- The frame ends as aborted (R89). -/
def abortFrame (s : State) : State :=
  { s with active := false, idx := 0, done := true, ok := false, errAbort := true }

/-- The input ports with a command presented (10_state.md R32). -/
def presentWord (w : Cmd) : Inputs := { rst := false, cmdValid := true, cmd := w }

/-- The input ports with the word of a command presented. -/
def presentInstr (i : Instr) : Inputs := presentWord (encode i)

/-- The input ports with reset asserted and no command (R101, `RESET` of 30_encoding.md R63). -/
def assertReset : Inputs := { rst := true, cmdValid := false, cmd := 0x000#12 }

/-- The same block with another list of host actions before it. -/
def withPending (l : List Inputs) (s : State) : State := { s with pending := l }

end Sys2Proof.Machine
end

