-- ==== Sys2Proof/Machine/CrcEngine.lean ====
section
/-! DEFINITION. The CRC engine commands (40_crc_engine.md R75 to R77). Each is legal when `active = 0` and faults
with code 3 otherwise (60_exceptions.md R116). -/

namespace Sys2Proof.Machine

/-- CRC.INIT (R75). -/
def execCrcInit (s : State) : Host.Outcome State Fault Refusal :=
  perform .crcInit (crcBlocked s) (startMessage s) s

/-- CRC.BYTE `d` (R76). -/
def execCrcByte (d : Byte) (s : State) : Host.Outcome State Fault Refusal :=
  perform (.crcByte d) (crcBlocked s) (feedMessage d s) s

/-- CRC.CHK `d` (R77). -/
def execCrcChk (d : Byte) (s : State) : Host.Outcome State Fault Refusal :=
  perform (.crcChk d) (crcBlocked s) (checkMessage d s) s

end Sys2Proof.Machine
end

