-- ==== Sys2Proof/Machine/FrameReceiver.lean ====
section
/-! DEFINITION. The frame receiver commands (41_frame_receiver.md R86 to R89). -/

namespace Sys2Proof.Machine

/-- FRM.START (R86): legal in every state with `fault = 0`; a frame in progress is discarded without trace. -/
def execFrmStart (s : State) : Host.Outcome State Fault Refusal :=
  perform .frmStart none (startFrame s) s

/-- FRM.BYTE `d` (R87, R88): legal when `active = 1`, code 4 otherwise. -/
def execFrmByte (d : Byte) (s : State) : Host.Outcome State Fault Refusal :=
  perform (.frmByte d) (frameBlocked s) (takeFrameByte d s) s

/-- FRM.ABORT (R89): legal when `active = 1`, code 4 otherwise. -/
def execFrmAbort (s : State) : Host.Outcome State Fault Refusal :=
  perform .frmAbort (frameBlocked s) (abortFrame s) s

end Sys2Proof.Machine
end

