-- ==== Sys2Proof/Machine/System.lean ====
section
/-! DEFINITION. The system command (42_system_and_host.md R100). -/

namespace Sys2Proof.Machine

/-- NOP (R100): legal in every state, writes nothing. -/
def execNop (s : State) : Host.Outcome State Fault Refusal :=
  perform .nop none s s

end Sys2Proof.Machine
end

