-- ==== Sys2Proof/Machine/Dispatch.lean ====
section
/-! DEFINITION. One arm per command (30_encoding.md R58). -/

namespace Sys2Proof.Machine

/-- The step of one decoded command (60_exceptions.md R121, items 2 and 5 to 7). -/
def exec (i : Instr) (s : State) : Host.Outcome State Fault Refusal :=
  match i with
  | .nop => Sys2Proof.Machine.execNop s
  | .crcInit => Sys2Proof.Machine.execCrcInit s
  | .crcByte d => Sys2Proof.Machine.execCrcByte d s
  | .crcChk d => Sys2Proof.Machine.execCrcChk d s
  | .frmStart => Sys2Proof.Machine.execFrmStart s
  | .frmByte d => Sys2Proof.Machine.execFrmByte d s
  | .frmAbort => Sys2Proof.Machine.execFrmAbort s

end Sys2Proof.Machine
end

