-- ==== Sys2Proof/Machine/Accept.lean ====
section
/-! DEFINITION. How a step takes the host's next action: the order of checks of 60_exceptions.md R121 over the input
ports of 10_state.md R32. -/

namespace Sys2Proof.Machine

/-- A command word is accepted (R121, items 2 to 7): fail-stop, then decode, then the command. A word that selects
no command raises its decode fault with the whole word recorded (R59, R60, R117). -/
def acceptWord (w : Cmd) (s : State) : Host.Outcome State Fault Refusal :=
  if s.fault then .next s
  else
    match decode w with
    | .error e => .next (raiseFault (illegalCode e) w s)
    | .ok i => exec i s

/-- One moment of the input ports (R32, R121 item 1): reset wins over a command (R137); with neither, nothing
happens. -/
def acceptInputs (p : Inputs) (s : State) : Host.Outcome State Fault Refusal :=
  if p.rst then .next (resetBlock s)
  else if p.cmdValid then acceptWord p.cmd s
  else .next s

/-- The host's next action is taken from the front of `pending`; with no action left the host does nothing and the
state is held (00_scope.md R7, 42_system_and_host.md R102, log 2). -/
def acceptNext (s : State) : Host.Outcome State Fault Refusal :=
  match s.pending with
  | [] => .next s
  | p :: rest => acceptInputs p (withPending rest s)

/-- The host is about to present the command of a table word: it comes before every other pending action. A word
that does not fit the 12-bit port cannot be presented (log 5). -/
def presentTableWord (nbits w : Nat) (s : State) : State :=
  match cmdOfTableWord nbits w with
  | none => s
  | some c => withPending (presentWord c :: s.pending) s

end Sys2Proof.Machine
end

