-- ==== Sys2Proof/Machine/Step.lean ====
section
/-! DEFINITION. One step of the machine: the block takes the host's next action (60_exceptions.md R121, R128). -/

namespace Sys2Proof.Machine

/-- One step (R121). -/
def step (s : State) : Host.Outcome State Fault Refusal := acceptNext s

/-- `s` with the command of a table word presented next on the `cmd` port (log 5). -/
def State.withFetchWord (s : State) (nbits w : Nat) : State := presentTableWord nbits w s

end Sys2Proof.Machine
end

