-- ==== Sys2Proof/Machine/Text.lean ====
section
/-! DEFINITION. The textual form of commands (30_encoding.md R63): a printer and a reader of lines, over lists of
characters. White space and the case of hexadecimal digits are fixed by log 10. -/

namespace Sys2Proof.Machine

/-- The hexadecimal digit of a 4-bit value, in capitals. -/
def hexChar (n : BitVec 4) : Char :=
  if n.toNat < 10 then Char.ofNat (48 + n.toNat) else Char.ofNat (55 + n.toNat)

/-- The value of a hexadecimal digit, in capitals or not. -/
def hexValue (c : Char) : Option (BitVec 4) :=
  let n := c.toNat
  if 48 ≤ n && n ≤ 57 then some (BitVec.ofNat 4 (n - 48))
  else if 65 ≤ n && n ≤ 70 then some (BitVec.ofNat 4 (n - 55))
  else if 97 ≤ n && n ≤ 102 then some (BitVec.ofNat 4 (n - 87))
  else none

/-- The mnemonic of a command, in capitals (R58, R63). -/
def mnemonic : Instr → List Char
  | .nop => ['N', 'O', 'P']
  | .crcInit => ['C', 'R', 'C', '.', 'I', 'N', 'I', 'T']
  | .crcByte _ => ['C', 'R', 'C', '.', 'B', 'Y', 'T', 'E']
  | .crcChk _ => ['C', 'R', 'C', '.', 'C', 'H', 'K']
  | .frmStart => ['F', 'R', 'M', '.', 'S', 'T', 'A', 'R', 'T']
  | .frmByte _ => ['F', 'R', 'M', '.', 'B', 'Y', 'T', 'E']
  | .frmAbort => ['F', 'R', 'M', '.', 'A', 'B', 'O', 'R', 'T']

/-- One space and the operand as `0x` and two hexadecimal digits (R63). -/
def operandText (d : Byte) : List Char :=
  [' ', '0', 'x', hexChar (d.extractLsb' 4 4), hexChar (d.extractLsb' 0 4)]

/-- A command as R63 writes it. -/
def commandText (i : Instr) : List Char :=
  match i with
  | .nop => mnemonic i
  | .crcInit => mnemonic i
  | .crcByte d => mnemonic i ++ operandText d
  | .crcChk d => mnemonic i ++ operandText d
  | .frmStart => mnemonic i
  | .frmByte d => mnemonic i ++ operandText d
  | .frmAbort => mnemonic i

/-- The pseudo-line that stands for a reset event (R63). -/
def resetText : List Char := ['R', 'E', 'S', 'E', 'T']

/-- What one line of a program says. -/
inductive Line where
  /-- Nothing, or a comment only. -/
  | blank
  /-- A command. -/
  | command (i : Instr)
  /-- The pseudo-line RESET. -/
  | reset
  deriving DecidableEq, Repr

/-- The rest of `cs` after the word `w`, if `cs` begins with it. -/
def afterWord : List Char → List Char → Option (List Char)
  | [], cs => some cs
  | _ :: _, [] => none
  | a :: w, c :: cs => if a = c then afterWord w cs else none

/-- An operand as R63 writes it, and nothing after it. -/
def readOperand : List Char → Option Byte
  | [a, b, c, h, l] =>
    if a = ' ' && b = '0' && c = 'x' then
      match hexValue h, hexValue l with
      | some x, some y => some (x ++ y)
      | _, _ => none
    else none
  | _ => none

/-- A B-format command with this mnemonic. -/
def readOperandCommand (w : List Char) (make : Byte → Instr) (cs : List Char) : Option Instr :=
  ((afterWord w cs).bind readOperand).map make

/-- A command as R63 writes it, and nothing after it. -/
def readCommand (cs : List Char) : Option Instr :=
  if cs = mnemonic .nop then some .nop
  else if cs = mnemonic .crcInit then some .crcInit
  else if cs = mnemonic .frmStart then some .frmStart
  else if cs = mnemonic .frmAbort then some .frmAbort
  else
    (readOperandCommand (mnemonic (.crcByte 0)) .crcByte cs).orElse fun _ =>
      (readOperandCommand (mnemonic (.crcChk 0)) .crcChk cs).orElse fun _ =>
        readOperandCommand (mnemonic (.frmByte 0)) .frmByte cs

/-- The line without its comment, which runs from `;` to the end of the line (R63). -/
def dropComment : List Char → List Char
  | [] => []
  | c :: cs => if c = ';' then [] else c :: dropComment cs

/-- The line without the spaces at its end. -/
def dropSpacesAtEnd : List Char → List Char
  | [] => []
  | c :: cs =>
    match dropSpacesAtEnd cs with
    | [] => if c = ' ' then [] else [c]
    | r :: rs => c :: r :: rs

/-- One line of a program (R63); `none` where it is neither blank, a command nor RESET. -/
def readLine (cs : List Char) : Option Line :=
  let body := dropSpacesAtEnd (dropComment cs)
  if body = [] then some .blank
  else if body = resetText then some .reset
  else (readCommand body).map .command

/-- The host actions of one line: RESET is a reset event, not a command word (R63, 42_system_and_host.md R101). -/
def lineInputs : Line → List Inputs
  | .blank => []
  | .command i => [presentInstr i]
  | .reset => [assertReset]

/-- The host actions of a program's lines, executed top to bottom (R63). -/
def readProgram : List (List Char) → Option (List Inputs)
  | [] => some []
  | l :: ls =>
    match readLine l, readProgram ls with
    | some x, some xs => some (lineInputs x ++ xs)
    | _, _ => none

end Sys2Proof.Machine
end

