-- ==== Sys2Proof/Machine/Pseudo.lean ====
section
/-! DEFINITION. The pseudo-commands and their expansions (30_encoding.md R64). They have no encoding of their own. -/

namespace Sys2Proof.Machine

/-- `CRC.BUF b0 ... b(n-1)`, n at least 0 (R64). -/
def crcBuf (m : List Byte) : List Instr := .crcInit :: m.map .crcByte

/-- `CRC.WORD w`: the 16-bit word fed most significant byte first (R64). -/
def crcWord (w : Raw) : List Instr := (bytesOf w).map .crcByte

/-- `CRC.VERIFY b0 ... b(n-1) k`: compute and compare (R64). -/
def crcVerify (m : List Byte) (k : Byte) : List Instr := crcBuf m ++ [.crcChk k]

/-- `FRM.RX b0 ... b5`: one complete six-byte frame (R64). -/
def frmRx (b0 b1 b2 b3 b4 b5 : Byte) : List Instr :=
  [.frmStart, .frmByte b0, .frmByte b1, .frmByte b2, .frmByte b3, .frmByte b4, .frmByte b5]

/-- The host actions that present these commands one after another (42_system_and_host.md R102). -/
def present (is : List Instr) : List Inputs := is.map presentInstr

end Sys2Proof.Machine
end

