-- ==== Sys2Proof/Machine/HostSide.lean ====
section
/-! DEFINITION. How the host drives the block (42_system_and_host.md R103, R106, R107) and how it reads a frame's
result (41_frame_receiver.md R95). Functions beside the block: they add no state and no command to it (log 11). -/

namespace Sys2Proof.Machine

/-- What the bus gave the host in one attempt of readSample (R103, R104): every value is the host's free input. -/
inductive BusAttempt where
  /-- The bus write of the command word reported a transport error: no read, no frame. -/
  | writeError
  /-- The bus read delivered these bytes and then reported a transport error. -/
  | readError (got : List Byte)
  /-- Write and read completed without a transport error: the six bytes, in bus order. -/
  | delivered (b0 b1 b2 b3 b4 b5 : Byte)
  deriving DecidableEq, Repr

/-- The attempt completed without a transport error (R103, R106). -/
def transportOk : BusAttempt → Bool
  | .writeError => false
  | .readError _ => false
  | .delivered _ _ _ _ _ _ => true

/-- The two ways of driving a bus read that R103 lets conform. -/
inductive HostDriving where
  /-- Each byte goes to the block as the bus delivers it; a read that fails before its sixth byte ends in FRM.ABORT. -/
  | bytewise
  /-- The bus read is one blocking call: its status is known before FRM.START, and a failed read is not shown to the
  block at all. -/
  | blocking
  deriving DecidableEq, Repr

/-- The block gets all six bytes of the attempt's frame. For a host that passes bytes on as they come this is so even
where the bus reports an error after them (R103: such a host "finds the frame already complete"). -/
def completesFrame : HostDriving → BusAttempt → Bool
  | _, .writeError => false
  | .bytewise, .readError got => decide (6 ≤ got.length)
  | .blocking, .readError _ => false
  | _, .delivered _ _ _ _ _ _ => true

/-- The commands the host issues for one attempt (R103). An error after six delivered bytes finds the frame already
complete, and FRM.ABORT is no longer legal. -/
def attemptCommands : HostDriving → BusAttempt → List Instr
  | _, .writeError => []
  | .bytewise, .readError got =>
      .frmStart :: (got.take 6).map .frmByte ++ (if got.length < 6 then [.frmAbort] else [])
  | .blocking, .readError _ => []
  | _, .delivered b0 b1 b2 b3 b4 b5 => frmRx b0 b1 b2 b3 b4 b5

/-- The attempts the retry loop makes of what the bus would give: at most `n`, ending at the first one whose frame
completes; a checksum mismatch is not retried (R106, R107, 70_reset_and_hazards.md R148). DEDUCED (log 11): an error
reported after the sixth byte is not retried either, because R103 sends only an error before it to step 5 and R148
lets at most one frame of a readSample complete. DESIGN CHOICE (log 17): every other transport error is retried while
attempts are left; R106's "general error", which the spec does not explain, is no outcome of its own. -/
def attemptsMade : HostDriving → Nat → List BusAttempt → List BusAttempt
  | _, 0, _ => []
  | _, _ + 1, [] => []
  | way, n + 1, a :: rest => if completesFrame way a then [a] else a :: attemptsMade way n rest

/-- All commands of one readSample with at most `n` attempts (R103, R106). -/
def readSampleCommands (way : HostDriving) (n : Nat) (bus : List BusAttempt) : List Instr :=
  (attemptsMade way n bus).flatMap (attemptCommands way)

/-- The commands of one readSample with the default number of attempts (00_scope.md R5). -/
def readSampleCommandsDefault (way : HostDriving) (bus : List BusAttempt) : List Instr :=
  readSampleCommands way Config.maxAttemptsDefault bus

/-- What a status byte says of the frame (R95). -/
inductive FrameReport where
  /-- FAULT: the other bits are frozen. -/
  | stopped
  /-- DONE and OK: both groups valid. -/
  | success
  /-- DONE, not OK, ERR_ABORT: transport error during the read. -/
  | transportError
  /-- DONE, not OK, ERR_T or ERR_H: checksum mismatch. -/
  | mismatch
  /-- BUSY, not DONE: frame still in progress. -/
  | inProgress
  /-- Neither BUSY nor DONE: no frame since reset. -/
  | noFrame
  /-- No row of R95: never seen on the port of a reachable state. -/
  | notInTable
  deriving DecidableEq, Repr

/-- The reading of the status byte (R95). Where ERR_ABORT stands beside ERR_T both rows of the table apply; the
transport error is reported (log 14). -/
def frameReport (status : BitVec 8) : FrameReport :=
  if status.getLsbD 7 then .stopped
  else if status.getLsbD 1 then
    if status.getLsbD 2 then .success
    else if status.getLsbD 5 then .transportError
    else if status.getLsbD 3 || status.getLsbD 4 then .mismatch
    else .notInTable
  else if status.getLsbD 0 then .inProgress
  else .noFrame

/-- What the document's readSample makes of a frame's report: the third column of the table of R95. -/
inductive ReadSampleReturn where
  /-- readSample (or, of a transport error, this attempt of it) returns this boolean. -/
  | value (b : Bool)
  /-- Not yet returned. -/
  | notYetReturned
  /-- No read attempted. -/
  | notAttempted
  /-- The document has no counterpart: the block is stopped. -/
  | noCounterpart
  deriving DecidableEq, Repr

/-- The third column of the table of R95. A status byte that is in no row has no counterpart either (log 14). -/
def reportReturn : FrameReport → ReadSampleReturn
  | .success => .value true
  | .mismatch => .value false
  | .transportError => .value false
  | .inProgress => .notYetReturned
  | .noFrame => .notAttempted
  | .stopped => .noCounterpart
  | .notInTable => .noCounterpart

/-- What one readSample returns, from what the bus gives and the status byte read after its commands. A stopped block
is never a successful end (R95, 60_exceptions.md R128). An attempt without a transport error returns what its frame's
report says (R103 step 4). Otherwise readSample returns false when the attempts are used up (R103 step 5), or when an
error came with the sixth byte, whose `ok` the host must disregard (R103); and it has not returned while attempts are
left of which `bus` says nothing. -/
def readSampleResult (way : HostDriving) (n : Nat) (bus : List BusAttempt) (status : BitVec 8) : ReadSampleReturn :=
  let made := attemptsMade way n bus
  if frameReport status = .stopped then .noCounterpart
  else if made.any transportOk then reportReturn (frameReport status)
  else if made.any (completesFrame way) || made.length == n then .value false
  else .notYetReturned

end Sys2Proof.Machine
end

