-- ==== Sys2Proof/Machine/Ports.lean ====
section
/-! DEFINITION. The output ports (10_state.md R31): plain copies of state, read without side effect. -/

namespace Sys2Proof.Machine

/-- What the host sees on the eight output ports (R31). `stg_t` and `stg_h` have no port (R25). -/
def outputs (s : State) : Outputs where
  status := statusByte s
  crcOut := s.crc
  crcMatch := BitVec.ofBool s.crcMatch
  idxOut := BitVec.ofNat 3 s.idx.val
  rawT := s.rawT
  rawH := s.rawH
  fcode := faultCodeBits s.fcode
  fcmd := s.fcmd

end Sys2Proof.Machine
end

