-- ==== Sys2Proof/Safety.lean ====
section
/-! DEFINITION. What claims speak of: the invariants of 10_state.md R34, the legality table of 60_exceptions.md R116,
a run of several steps (42_system_and_host.md R112), and the host's contract (R108). -/

namespace Sys2Proof.Machine

/-- The eleven items of R34, in its order. Item 10's `RAW_T_RESET`, `RAW_H_RESET` are those of the present draw. -/
structure BlockInvariant (s : State) : Prop where
  /-- Item 1. -/
  idx_le : s.idx.val ≤ 5
  /-- Item 2. -/
  idle_idx : s.active = false → s.idx = 0
  /-- Item 3. -/
  busy_flags : s.active = true →
    s.done = false ∧ s.ok = false ∧ s.errAbort = false ∧ s.errH = false ∧ s.crcMatch = false
  /-- Item 4. -/
  busy_errT : s.active = true → s.idx.val ≤ 2 → s.errT = false
  /-- Item 5. -/
  ok_sample : s.ok = true →
    s.done = true ∧ s.errT = false ∧ s.errH = false ∧ s.errAbort = false ∧ s.sampleValid = true ∧
      s.rawT = s.stgT ∧ s.rawH = s.stgH
  /-- Item 6. -/
  done_ok : s.done = true → s.errAbort = false → (s.ok = true ↔ s.errT = false ∧ s.errH = false)
  /-- Item 7. -/
  abort_flags : s.errAbort = true → s.done = true ∧ s.ok = false ∧ s.errH = false
  /-- Item 8. -/
  fresh_flags : s.done = false → s.active = false →
    s.ok = false ∧ s.errT = false ∧ s.errH = false ∧ s.errAbort = false
  /-- Item 9, no fault. -/
  no_fault : s.fault = false → s.fcode = .noFault ∧ s.fcmd = 0x000#12
  /-- Item 9, a fault: the 3-bit code is 1 to 4. -/
  fault_code : s.fault = true → 1 ≤ (faultCodeBits s.fcode).toNat ∧ (faultCodeBits s.fcode).toNat ≤ 4
  /-- Item 10. -/
  no_sample : s.sampleValid = false →
    s.rawT = Config.rawTReset s.draw ∧ s.rawH = Config.rawHReset s.draw ∧ s.ok = false
  /-- Item 11. -/
  fresh_staging : s.active = false → s.done = false → s.stgT = 0x0000#16 ∧ s.stgH = 0x0000#16

/-- The command is legal where it arrives: the table of R116, for `fault = 0`. -/
def legal (i : Instr) (s : State) : Bool :=
  match i with
  | .nop => true
  | .crcInit => !s.active
  | .crcByte _ => !s.active
  | .crcChk _ => !s.active
  | .frmStart => true
  | .frmByte _ => s.active
  | .frmAbort => s.active

/-- `k` steps, from the host actions in `s.pending`, stopping at the first step that gives no next state. -/
def runSteps : Nat → State → Host.Outcome State Fault Refusal
  | 0, s => .next s
  | k + 1, s =>
    match step s with
    | .next t => runSteps k t
    | .fault r => .fault r
    | .refused r => .refused r

/-- The first pending host action is an asserted reset. -/
def resetNext (s : State) : Bool :=
  match s.pending with
  | [] => false
  | p :: _ => p.rst

/-- The command word that the next step takes: `none` where the host asserts reset or does nothing (R102, R137). -/
def nextWord (s : State) : Option Cmd :=
  match s.pending with
  | [] => none
  | p :: _ => if p.rst then none else if p.cmdValid then some p.cmd else none

/-- The message bytes among these commands: the operands of CRC.BYTE (40_crc_engine.md R76). -/
def messageBytes : List Instr → List Byte
  | [] => []
  | .crcByte d :: is => d :: messageBytes is
  | .nop :: is => messageBytes is
  | .crcInit :: is => messageBytes is
  | .crcChk _ :: is => messageBytes is
  | .frmStart :: is => messageBytes is
  | .frmByte _ :: is => messageBytes is
  | .frmAbort :: is => messageBytes is

/-- Where a host that keeps its contract stands in its command stream (42_system_and_host.md R108). -/
inductive HostPhase where
  /-- No frame in progress; `message` says that a CRC.INIT has started the message being fed. -/
  | between (message : Bool)
  /-- In a frame of which this many bytes have been delivered. -/
  | inFrame (taken : Nat)
  deriving DecidableEq, Repr

/-- The host's next phase, `none` where the command breaks the contract: R108 (a) six bytes and nothing but NOPs after
one FRM.START (an attempt whose read fails ends with FRM.ABORT, R103), (d) CRC.INIT before the first CRC.BYTE of a
message, (e) no CRC command during a frame. Its items (b), (c) and (f) are about reading ports and resetting. -/
def contractStep : HostPhase → Instr → Option HostPhase
  | p, .nop => some p
  | .between _, .crcInit => some (.between true)
  | .between message, .crcByte _ => if message then some (.between true) else none
  | .between message, .crcChk _ => some (.between message)
  | .between _, .frmStart => some (.inFrame 0)
  | .between _, .frmByte _ => none
  | .between _, .frmAbort => none
  | .inFrame _, .crcInit => none
  | .inFrame _, .crcByte _ => none
  | .inFrame _, .crcChk _ => none
  | .inFrame _, .frmStart => none
  | .inFrame taken, .frmByte _ => if taken < 5 then some (.inFrame (taken + 1)) else some (.between false)
  | .inFrame _, .frmAbort => some (.between false)

/-- The command stream keeps the contract from this phase on (R108). -/
def keepsContract : HostPhase → List Instr → Bool
  | _, [] => true
  | p, i :: is =>
    match contractStep p i with
    | none => false
    | some q => keepsContract q is

end Sys2Proof.Machine
end

