-- ==== Sys2Proof/Certificates/Slice0/Obligations.lean ====
section
/-! DEFINITION. The statements for the provers, from the numbered rules of spec/. -/

open Sys2Proof Sys2Proof.Machine

/-! ### Encoding -/

/-- Decoding and encoding are inverse to each other on the legal words (30_encoding.md R58, R65;
95_test_vectors.md section 2: "Decode then encode is the identity on the 772 legal words"). -/
def Obligations.DecodeEncodeInverse : Prop :=
  (∀ i : Instr, decode (encode i) = .ok i) ∧
    (∀ (w : Cmd) (i : Instr), decode w = .ok i → encode i = w) ∧
    ∀ i : Instr, decodeTableWord 16 (encode i).toNat = some i

/-- The words of 95_test_vectors.md section 2, each with what it decodes to. -/
def Obligations.DecodeSampleWords : Prop :=
  decode 0x000#12 = .ok .nop ∧ decode 0x100#12 = .ok .crcInit ∧ decode 0x2BE#12 = .ok (.crcByte 0xBE#8) ∧
    decode 0x392#12 = .ok (.crcChk 0x92#8) ∧ decode 0x800#12 = .ok .frmStart ∧
    decode 0x91C#12 = .ok (.frmByte 0x1C#8) ∧ decode 0xA00#12 = .ok .frmAbort ∧
    decode 0x400#12 = .error .opcode ∧ decode 0xFFF#12 = .error .opcode ∧
    decode 0x001#12 = .error .operand ∧ decode 0xA80#12 = .error .operand

/-- R59: the nine reserved opcodes, their 2304 words, and the fault a step with one of them takes (in a stopped block
nothing happens: FailStop, R119). -/
def Obligations.ReservedOpcodeFaults : Prop :=
  (∀ w : Cmd, decode w = .error .opcode ↔
      opField w ∈ [0x4#4, 0x5#4, 0x6#4, 0x7#4, 0xB#4, 0xC#4, 0xD#4, 0xE#4, 0xF#4]) ∧
    (∀ w : Cmd, decode w = .error .opcode ↔ (0x400 ≤ w.toNat ∧ w.toNat ≤ 0x7FF) ∨ 0xB00 ≤ w.toNat) ∧
    ((List.range 4096).filter fun n => decode (BitVec.ofNat 12 n) = .error .opcode).length = 2304 ∧
    ∀ (s : State) (w : Cmd) (rest : List Inputs), s.fault = false → s.pending = presentWord w :: rest →
      decode w = .error .opcode →
      step s = .next { s with pending := rest, fault := true, fcode := .illegalOpcode, fcmd := w } ∧
        faultCodeBits .illegalOpcode = 1#3

/-- R60: the 1020 words with a Z-format opcode and a non-zero operand field, and the fault a step with one takes (in
a stopped block nothing happens: FailStop, R119). -/
def Obligations.NonzeroOperandFaults : Prop :=
  (∀ w : Cmd, decode w = .error .operand ↔
      opField w ∈ [0x0#4, 0x1#4, 0x8#4, 0xA#4] ∧ operandField w ≠ 0x00#8) ∧
    ((List.range 4096).filter fun n => decode (BitVec.ofNat 12 n) = .error .operand).length = 1020 ∧
    (∀ w : Cmd, 0x000 < w.toNat → w.toNat ≤ 0x0FF → decode w ≠ .ok .nop) ∧
    ∀ (s : State) (w : Cmd) (rest : List Inputs), s.fault = false → s.pending = presentWord w :: rest →
      decode w = .error .operand →
      step s = .next { s with pending := rest, fault := true, fcode := .illegalOperand, fcmd := w } ∧
        faultCodeBits .illegalOperand = 2#3

/-- R61: 772 legal words (4 of Z-format, 3 times 256 of B-format), 2304 and 1020 faulting ones; the only
no-operation word is 0x000; a legal word can still fault with code 3 or 4 because of the state. -/
def Obligations.WordCounts : Prop :=
  ((List.range 4096).filter fun n => (decode (BitVec.ofNat 12 n)).toBool).length = 4 + 3 * 256 ∧
    ((List.range 4096).filter fun n => decode (BitVec.ofNat 12 n) = .error .opcode).length = 2304 ∧
    ((List.range 4096).filter fun n => decode (BitVec.ofNat 12 n) = .error .operand).length = 1020 ∧
    (∀ w : Cmd, decode w = .ok .nop ↔ w = 0x000#12) ∧
    (∀ s : State, s.fault = false → s.active = true →
      acceptWord 0x100#12 s = .next { s with fault := true, fcode := .crcBusy, fcmd := 0x100#12 }) ∧
    ∀ s : State, s.fault = false → s.active = false →
      acceptWord 0xA00#12 s = .next { s with fault := true, fcode := .frmIdle, fcmd := 0xA00#12 }

/-- R58, R65: a word that decodes to a command selects that command's row of the opcode map and no other; every
other word selects no row. -/
def Obligations.DecodeFollowsOpcodeMap : Prop :=
  ∀ w : Cmd,
    (∀ i : Instr, decode w = .ok i → opcodeRows.filter (selects w) = [rowOf i]) ∧
      (∀ e : Illegal, decode w = .error e → opcodeRows.filter (selects w) = [])

/-- R63: a command's line reads back as the command, alone or with spaces and a comment after it. The spaces are the
model's choice (log 10). -/
def Obligations.CommandTextReadsBack : Prop :=
  ∀ (i : Instr) (n : Nat) (comment : List Char),
    readLine (commandText i) = some (.command i) ∧
      readLine (commandText i ++ List.replicate n ' ' ++ ';' :: comment) = some (.command i)

/-! ### The CRC-8 function -/

/-- R70: one iteration, with the shift as `(2*a) mod 256` (R9), and the rule's examples. -/
def Obligations.CrcIterationIsShiftAndXor : Prop :=
  (∀ c : Byte, crc8Bit c =
      if c.getLsbD 7 then BitVec.ofNat 8 (2 * c.toNat % 256) ^^^ 0x31#8 else BitVec.ofNat 8 (2 * c.toNat % 256)) ∧
    crc8Bit 0xFF#8 = 0xCF#8 ∧ crc8Bit 0x41#8 = 0x82#8

/-- R71: the byte is XORed in whole, then exactly eight iterations follow; the rule's example, every value. -/
def Obligations.CrcByteIsEightIterations : Prop :=
  (∀ c d : Byte, crc8Byte c d = crc8Bit^[8] (c ^^^ d)) ∧
    (List.range 9).map (fun n => crc8Bit^[n] (0xFF#8 ^^^ 0x00#8)) =
      [0xFF#8, 0xCF#8, 0xAF#8, 0x6F#8, 0xDE#8, 0x8D#8, 0x2B#8, 0x56#8, 0xAC#8] ∧
    crc8Byte 0xFF#8 0x00#8 = 0xAC#8

/-- R72: the empty sequence gives 0xFF, and a further byte at the end is one more `crc8_byte`. -/
def Obligations.CrcSequenceRecurrence : Prop :=
  crc8 [] = 0xFF#8 ∧ ∀ (m : List Byte) (d : Byte), crc8 (m ++ [d]) = crc8Byte (crc8 m) d

/-- R81: the document's reference vector, with the running values. -/
def Obligations.CrcReferenceVector : Prop :=
  crc8Byte 0xFF#8 0x00#8 = 0xAC#8 ∧
    (List.range 9).map (fun n => crc8Bit^[n] 0xAC#8) =
      [0xAC#8, 0x69#8, 0xD2#8, 0x95#8, 0x1B#8, 0x36#8, 0x6C#8, 0xD8#8, 0x81#8] ∧
    crc8 [0x00#8, 0x00#8] = 0x81#8

/-- R80, R79 item 1: only the XOR of the running value and the byte matters, so a 256-entry table computes the byte
step; the rule's table entries. -/
def Obligations.CrcTableForm : Prop :=
  (∀ c d : Byte, crc8Byte c d = crcTable (c ^^^ d)) ∧
    crcTable 0x00#8 = 0x00#8 ∧ crcTable 0x01#8 = 0x31#8 ∧ crcTable 0x02#8 = 0x62#8 ∧ crcTable 0x80#8 = 0x7A#8 ∧
    crcTable 0xFF#8 = 0xAC#8

/-- R79 item 2: bijective in either argument; exactly one checksum, and for a given checksum exactly one second
byte, makes a group valid. -/
def Obligations.CrcByteBijective : Prop :=
  (∀ d : Byte, Function.Bijective fun c : Byte => crc8Byte c d) ∧
    (∀ c : Byte, Function.Bijective fun d : Byte => crc8Byte c d) ∧
    (∀ b0 b1 : Byte, ∃! k : Byte, groupValid b0 b1 k = true) ∧
    ∀ b0 k : Byte, ∃! b1 : Byte, groupValid b0 b1 k = true

/-- R79 item 3: linear over XOR. -/
def Obligations.CrcByteLinear : Prop :=
  ∀ c1 c2 d1 d2 : Byte, crc8Byte (c1 ^^^ c2) (d1 ^^^ d2) = crc8Byte c1 d1 ^^^ crc8Byte c2 d2

/-- R79 item 4: a message followed by its checksum leaves zero, and the test by residue accepts the same groups as
the compare of R78; item 6's two values. -/
def Obligations.CrcZeroResidue : Prop :=
  (∀ m : List Byte, crc8 (m ++ [crc8 m]) = 0x00#8) ∧
    (∀ b0 b1 k : Byte, groupValid b0 b1 k = true ↔ crc8 [b0, b1, k] = 0x00#8) ∧
    crc8Byte 0xFF#8 0xFF#8 = 0x00#8 ∧ crc8Byte 0x00#8 0x00#8 = 0x00#8

/-- R79 item 5: one or two flipped bits anywhere in the 24 bits of a valid group make it invalid. The group is the
word `b0 ++ b1 ++ k`. -/
def Obligations.GroupErrorDetection : Prop :=
  ∀ (g : BitVec 24) (i j : Fin 24),
    groupValid (g.extractLsb' 16 8) (g.extractLsb' 8 8) (g.extractLsb' 0 8) = true →
    (let f := g ^^^ 1#24 <<< i.val
     groupValid (f.extractLsb' 16 8) (f.extractLsb' 8 8) (f.extractLsb' 0 8) = false) ∧
    (i ≠ j →
      let f := g ^^^ 1#24 <<< i.val ^^^ 1#24 <<< j.val
      groupValid (f.extractLsb' 16 8) (f.extractLsb' 8 8) (f.extractLsb' 0 8) = false)

/-! ### The commands: result and frame, where each faults, and its word -/

/-- R100: NOP is the word 0x000, legal in every state, and writes nothing; with a non-zero operand field the word
faults with code 2. -/
def Obligations.NopResult : Prop :=
  encode .nop = 0x000#12 ∧ (∀ s : State, exec .nop s = .next s) ∧
    ∀ (s : State) (d : Byte), s.fault = false → d ≠ 0x00#8 →
      acceptWord (assemble 0x0#4 d) s = .next { s with fault := true, fcode := .illegalOperand, fcmd := assemble 0x0#4 d }

/-- R75: CRC.INIT starts a message; code 3 in a frame; code 2 with a non-zero operand field; a second one in a row
and one straight after reset change nothing. -/
def Obligations.CrcInitResult : Prop :=
  encode .crcInit = 0x100#12 ∧
    (∀ s : State, s.fault = false → s.active = false →
      exec .crcInit s = .next { s with crc := 0xFF#8, crcMatch := false } ∧
        exec .crcInit { s with crc := 0xFF#8, crcMatch := false } = .next { s with crc := 0xFF#8, crcMatch := false }) ∧
    (∀ s : State, s.fault = false → s.active = true →
      exec .crcInit s = .next { s with fault := true, fcode := .crcBusy, fcmd := 0x100#12 }) ∧
    (∀ (s : State) (d : Byte), s.fault = false → d ≠ 0x00#8 →
      acceptWord (assemble 0x1#4 d) s = .next { s with fault := true, fcode := .illegalOperand, fcmd := assemble 0x1#4 d }) ∧
    exec .crcInit State.reset = .next State.reset

/-- R76: CRC.BYTE carries the running value over one more byte; code 3 in a frame; after CRC.INIT and the bytes of a
message, with any NOP and CRC.CHK between them (the commands that are legal there and do not write `crc`), the running
value is the message's checksum, and without the CRC.INIT the old value is continued; a byte equal to the running
value leaves zero; the rule's worked example. -/
def Obligations.CrcByteResult : Prop :=
  (∀ d : Byte, encode (.crcByte d) = 0x200#12 ||| d.setWidth 12) ∧
    (∀ (s : State) (d : Byte), s.fault = false → s.active = false →
      exec (.crcByte d) s = .next { s with crc := crc8Byte s.crc d, crcMatch := false }) ∧
    (∀ (s : State) (d : Byte), s.fault = false → s.active = true →
      exec (.crcByte d) s = .next { s with fault := true, fcode := .crcBusy, fcmd := assemble 0x2#4 d }) ∧
    (∀ s : State, s.fault = false → s.active = false →
      exec (.crcByte s.crc) s = .next { s with crc := 0x00#8, crcMatch := false }) ∧
    crc8Byte 0xFF#8 0xBE#8 = 0x0C#8 ∧ crc8Byte 0x0C#8 0xEF#8 = 0x92#8 ∧
    (∀ (s : State) (m : List Byte) (rest : List Inputs), s.fault = false → s.active = false →
      runSteps (m.length + 1) (withPending (present (crcBuf m) ++ rest) s) =
        .next { s with pending := rest, crc := crc8 m, crcMatch := false }) ∧
    (∀ (s : State) (d : Byte) (m : List Byte) (rest : List Inputs), s.fault = false → s.active = false →
      runSteps (m.length + 1) (withPending (present ((d :: m).map .crcByte) ++ rest) s) =
        .next { s with pending := rest, crc := crc8From s.crc (d :: m), crcMatch := false }) ∧
    ∀ (s : State) (is : List Instr) (rest : List Inputs), s.fault = false → s.active = false →
      (∀ i ∈ is, i = .nop ∨ (∃ d, i = .crcByte d) ∨ ∃ k, i = .crcChk k) →
      (∃ m : Bool, runSteps is.length (withPending (present is ++ rest) s) =
        .next { s with pending := rest, crc := crc8From s.crc (messageBytes is), crcMatch := m }) ∧
      ∃ m : Bool, runSteps (is.length + 1) (withPending (present (.crcInit :: is) ++ rest) s) =
        .next { s with pending := rest, crc := crc8 (messageBytes is), crcMatch := m }

/-- R77: CRC.CHK compares and leaves the running value alone; code 3 in a frame; after `CRC.BUF b0 b1` it says
whether the group is valid; straight after reset, CRC.CHK 0xFF matches. -/
def Obligations.CrcChkResult : Prop :=
  (∀ d : Byte, encode (.crcChk d) = 0x300#12 ||| d.setWidth 12) ∧
    (∀ (s : State) (d : Byte), s.fault = false → s.active = false →
      exec (.crcChk d) s = .next { s with crcMatch := decide (s.crc = d) }) ∧
    (∀ (s : State) (d : Byte), s.fault = false → s.active = true →
      exec (.crcChk d) s = .next { s with fault := true, fcode := .crcBusy, fcmd := assemble 0x3#4 d }) ∧
    (∀ (s : State) (b0 b1 k : Byte) (rest : List Inputs), s.fault = false → s.active = false →
      runSteps 4 (withPending (present (crcVerify [b0, b1] k) ++ rest) s) =
        .next { s with pending := rest, crc := crc8 [b0, b1], crcMatch := groupValid b0 b1 k }) ∧
    exec (.crcChk 0xFF#8) State.reset = .next { State.reset with crcMatch := true }

/-- R86: FRM.START, whether a frame is in progress or not; code 2 with a non-zero operand field; the ports after one
from the reset state. -/
def Obligations.FrmStartResult : Prop :=
  encode .frmStart = 0x800#12 ∧
    (∀ s : State, s.fault = false →
      exec .frmStart s = .next { s with
        active := true, idx := 0, crc := 0xFF#8, crcMatch := false, stgT := 0x0000#16, stgH := 0x0000#16,
        done := false, ok := false, errT := false, errH := false, errAbort := false }) ∧
    (∀ (s : State) (d : Byte), s.fault = false → d ≠ 0x00#8 →
      acceptWord (assemble 0x8#4 d) s = .next { s with fault := true, fcode := .illegalOperand, fcmd := assemble 0x8#4 d }) ∧
    ∃ t : State, exec .frmStart State.reset = .next t ∧ (outputs t).status = 0x01#8 ∧ (outputs t).crcOut = 0xFF#8 ∧
      (outputs t).idxOut = 0#3

/-- R87: FRM.BYTE at offsets 0 to 4, each with everything it writes and nothing else; code 4 outside a frame; the running values of the rule's worked example. -/
def Obligations.FrmByteResult : Prop :=
  (∀ d : Byte, encode (.frmByte d) = 0x900#12 ||| d.setWidth 12) ∧
    (∀ (s : State) (d : Byte), s.fault = false → s.active = true →
      (s.idx = 0 → exec (.frmByte d) s = .next { s with
        stgT := d ++ s.stgT.extractLsb' 0 8, crc := crc8Byte 0xFF#8 d, idx := 1 }) ∧
      (s.idx = 1 → exec (.frmByte d) s = .next { s with
        stgT := s.stgT.extractLsb' 8 8 ++ d, crc := crc8Byte s.crc d, idx := 2 }) ∧
      (s.idx = 2 → exec (.frmByte d) s = .next { s with errT := decide (s.crc ≠ d), idx := 3 }) ∧
      (s.idx = 3 → exec (.frmByte d) s = .next { s with
        stgH := d ++ s.stgH.extractLsb' 0 8, crc := crc8Byte 0xFF#8 d, idx := 4 }) ∧
      (s.idx = 4 → exec (.frmByte d) s = .next { s with
        stgH := s.stgH.extractLsb' 8 8 ++ d, crc := crc8Byte s.crc d, idx := 5 })) ∧
    (crc8Byte 0xFF#8 0x64#8 = 0xD3#8 ∧ crc8Byte 0xD3#8 0x8B#8 = 0xC7#8) ∧
    ∀ (s : State) (d : Byte), s.fault = false → s.active = false →
      exec (.frmByte d) s = .next { s with fault := true, fcode := .frmIdle, fcmd := assemble 0x9#4 d }

/-- R88: FRM.BYTE at offset 5: the frame ends; both words and `sample_valid` are written when both groups passed,
and not otherwise. The groups of all zero and of all one data are valid. The next FRM.BYTE is a fault. -/
def Obligations.FrmByteEndsFrame : Prop :=
  (∀ (s : State) (d : Byte), s.fault = false → s.active = true → s.idx = 5 →
    (s.errT = false → s.crc = d → exec (.frmByte d) s = .next { s with
      errH := false, active := false, done := true, idx := 0, ok := true, rawT := s.stgT, rawH := s.stgH,
      sampleValid := true }) ∧
    (s.errT = true ∨ s.crc ≠ d → exec (.frmByte d) s = .next { s with
      errH := decide (s.crc ≠ d), active := false, done := true, idx := 0, ok := false })) ∧
    (groupValid 0x00#8 0x00#8 0x81#8 = true ∧ groupValid 0xFF#8 0xFF#8 0xAC#8 = true) ∧
    ∀ (s t u : State) (d d' : Byte), s.fault = false → s.active = true → s.idx = 5 →
      exec (.frmByte d) s = .next t → exec (.frmByte d') t = .next u →
      u = { t with fault := true, fcode := .frmIdle, fcmd := assemble 0x9#4 d' }

/-- R89: FRM.ABORT ends the frame as a failure and commits nothing; code 4 outside a frame; code 2 with a non-zero
operand field. -/
def Obligations.FrmAbortResult : Prop :=
  encode .frmAbort = 0xA00#12 ∧
    (∀ s : State, s.fault = false → s.active = true →
      exec .frmAbort s = .next { s with active := false, idx := 0, done := true, ok := false, errAbort := true }) ∧
    (∀ s : State, s.fault = false → s.active = false →
      exec .frmAbort s = .next { s with fault := true, fcode := .frmIdle, fcmd := 0xA00#12 }) ∧
    ∀ (s : State) (d : Byte), s.fault = false → d ≠ 0x00#8 →
      acceptWord (assemble 0xA#4 d) s = .next { s with fault := true, fcode := .illegalOperand, fcmd := assemble 0xA#4 d }

/-! ### The step -/

/-- When the word presented next decodes to a command, the step is that command's `exec` on the state from which the
host's action has been taken. -/
def Obligations.StepRunsDecodedCommand : Prop :=
  ∀ (s : State) (w : Cmd) (i : Instr) (rest : List Inputs), s.pending = presentWord w :: rest → decode w = .ok i →
    step s = exec i (withPending rest s)

/-- Presenting a command's word by `withFetchWord` makes the very next step run exactly that command (log 5). -/
def Obligations.FetchWordRunsCommand : Prop :=
  ∀ (s : State) (i : Instr), step (s.withFetchWord 16 (encode i).toNat) = exec i s

/-- R121: the order of checks of one step, whatever the host presents. Of a reset it says that every element but the
unspecified `raw_t` and `raw_h` is at its reset value. -/
def Obligations.StepOrderOfChecks : Prop :=
  ∀ (s : State) (p : Inputs) (rest : List Inputs), s.pending = p :: rest →
    (p.rst = true → ∃ t, step s = .next t ∧ t.pending = rest ∧
      { t with rawT := 0#16, rawH := 0#16, draw := 0, pending := [] } =
        { State.reset with rawT := 0#16, rawH := 0#16, draw := 0, pending := [] }) ∧
    (p.rst = false → p.cmdValid = true →
      (s.fault = true → step s = .next { s with pending := rest }) ∧
      (s.fault = false →
        (reservedOpcode (opField p.cmd) = true →
          step s = .next { s with pending := rest, fault := true, fcode := .illegalOpcode, fcmd := p.cmd }) ∧
        (zFormatOpcode (opField p.cmd) = true → operandField p.cmd ≠ 0x00#8 →
          step s = .next { s with pending := rest, fault := true, fcode := .illegalOperand, fcmd := p.cmd }) ∧
        (p.cmd = encode .crcInit ∨ (∃ d, p.cmd = encode (.crcByte d)) ∨ (∃ d, p.cmd = encode (.crcChk d)) →
          s.active = true →
          step s = .next { s with pending := rest, fault := true, fcode := .crcBusy, fcmd := p.cmd }) ∧
        ((∃ d, p.cmd = encode (.frmByte d)) ∨ p.cmd = encode .frmAbort → s.active = false →
          step s = .next { s with pending := rest, fault := true, fcode := .frmIdle, fcmd := p.cmd }) ∧
        (∀ i, p.cmd = encode i → legal i s = true →
          ∃ t, step s = .next t ∧ exec i { s with pending := rest } = .next t ∧ t.fault = false)))

/-- R32, R102: with no command and no reset the state is held, with nothing pending too (log 2). -/
def Obligations.IdleHostHoldsState : Prop :=
  (∀ s : State, s.pending = [] → step s = .next s) ∧
    ∀ (s : State) (p : Inputs) (rest : List Inputs), s.pending = p :: rest → p.rst = false → p.cmdValid = false →
      step s = .next { s with pending := rest }

/-- R128: the step function is total: every step and every command answers a next state. -/
def Obligations.EveryStepAnswersNext : Prop :=
  (∀ s : State, ∃ t : State, step s = .next t) ∧ ∀ (i : Instr) (s : State), ∃ t : State, exec i s = .next t

/-- R101, R137: reset wins over a command presented with it and puts every element at its reset value, in every
state; `raw_t` and `raw_h` go to the unspecified reset words, of which nothing more is said. That these are the words
of the next draw, whose number the model's own field `draw` counts, is the model's choice (log 3). -/
def Obligations.ResetWinsAndResetsAll : Prop :=
  ∀ (s : State) (p : Inputs) (rest : List Inputs), s.pending = p :: rest → p.rst = true →
    ∃ t : State, step s = .next t ∧ t.crc = 0xFF#8 ∧ t.crcMatch = false ∧ t.active = false ∧ t.idx = 0 ∧
      t.stgT = 0x0000#16 ∧ t.stgH = 0x0000#16 ∧ t.sampleValid = false ∧ t.done = false ∧ t.ok = false ∧
      t.errT = false ∧ t.errH = false ∧ t.errAbort = false ∧ t.fault = false ∧ t.fcode = .noFault ∧
      t.fcmd = 0x000#12 ∧ t.rawT = Config.rawTReset t.draw ∧ t.rawH = Config.rawHReset t.draw ∧ t.draw = s.draw + 1 ∧
      t.pending = rest

/-- R136: the state right after reset, every element whose value the table gives, and the ports. -/
def Obligations.StateAfterReset : Prop :=
  let s := State.reset
  (s.crc = 0xFF#8 ∧ s.crcMatch = false ∧ s.active = false ∧ s.idx = 0 ∧ s.stgT = 0x0000#16 ∧ s.stgH = 0x0000#16 ∧
    s.sampleValid = false ∧ s.done = false ∧ s.ok = false ∧ s.errT = false ∧ s.errH = false ∧ s.errAbort = false ∧
    s.fault = false ∧ s.fcode = .noFault ∧ s.fcmd = 0x000#12) ∧
  ((outputs s).status = 0x00#8 ∧ (outputs s).crcOut = 0xFF#8 ∧ (outputs s).crcMatch = 0#1 ∧ (outputs s).idxOut = 0#3 ∧
    (outputs s).fcode = 0#3 ∧ (outputs s).fcmd = 0x000#12)

/-- R30: which state bit stands at which bit of the status port. -/
def Obligations.StatusByteBits : Prop :=
  ∀ s : State, let b := (outputs s).status
    b.getLsbD 0 = s.active ∧ b.getLsbD 1 = s.done ∧ b.getLsbD 2 = s.ok ∧ b.getLsbD 3 = s.errT ∧
      b.getLsbD 4 = s.errH ∧ b.getLsbD 5 = s.errAbort ∧ b.getLsbD 6 = s.sampleValid ∧ b.getLsbD 7 = s.fault

/-- R31: the other seven ports are plain copies of state, `fcode` with the codes 0 to 4 of R116; two states that agree on the fifteen elements with a port
show the same, whatever `stg_t` and `stg_h` hold. -/
def Obligations.PortsShowState : Prop :=
  (∀ s : State, (outputs s).crcOut = s.crc ∧ ((outputs s).crcMatch = 1#1 ↔ s.crcMatch = true) ∧
    (outputs s).idxOut.toNat = s.idx.val ∧ (outputs s).rawT = s.rawT ∧ (outputs s).rawH = s.rawH ∧
    (outputs s).fcode = faultCodeBits s.fcode ∧ (outputs s).fcmd = s.fcmd) ∧
    (faultCodeBits .noFault = 0#3 ∧ faultCodeBits .illegalOpcode = 1#3 ∧ faultCodeBits .illegalOperand = 2#3 ∧
      faultCodeBits .crcBusy = 3#3 ∧ faultCodeBits .frmIdle = 4#3) ∧
    ∀ (s : State) (x y : Raw), outputs { s with stgT := x, stgH := y } = outputs s

/-! ### Faults -/

/-- R118, R117: a step that takes a protocol fault writes `fault`, `fcode` and `fcmd` and nothing else, and `fcmd`
gets the complete word that was presented. -/
def Obligations.FaultEntryFrame : Prop :=
  ∀ (s t : State) (w : Cmd), s.fault = false → acceptWord w s = .next t → t.fault = true →
    t = { s with fault := true, fcode := t.fcode, fcmd := w } ∧ t.fcode ≠ .noFault

/-- R119: while `fault = 1`, every word and every command leaves the whole state unchanged, over any number of steps
without a reset. -/
def Obligations.FailStop : Prop :=
  (∀ (s : State) (w : Cmd), s.fault = true → acceptWord w s = .next s) ∧
    (∀ (s : State) (i : Instr), s.fault = true → exec i s = .next s) ∧
    ∀ (k : Nat) (s : State), s.fault = true → (∀ p ∈ s.pending, p.rst = false) →
      runSteps k s = .next (withPending (s.pending.drop k) s) ∧
        outputs (withPending (s.pending.drop k) s) = outputs s

/-- R120: the only step that clears `fault` is a reset, and no step but a reset changes a recorded fault. -/
def Obligations.FaultLeftOnlyByReset : Prop :=
  ∀ s t : State, s.fault = true → step s = .next t → resetNext s = false →
    t.fault = true ∧ t.fcode = s.fcode ∧ t.fcmd = s.fcmd

/-- R116: with `fault = 0`, a command faults exactly where the legality table says, with code 3 in a frame and code
4 outside one. -/
def Obligations.LegalityTable : Prop :=
  ∀ (i : Instr) (s t : State), s.fault = false → exec i s = .next t →
    (legal i s = true → t.fault = false) ∧
      (legal i s = false → t.fault = true ∧
        faultCodeBits t.fcode = if s.active then 3#3 else 4#3)

/-! ### Invariants and whole-machine rules -/

/-- R34 at the state right after reset. The form is the model's choice in two items: item 10 names RAW_T_RESET and
RAW_H_RESET as the words of the present draw (log 3), and item 1 holds by the type of `idx` (log 4). -/
def Obligations.ResetMeetsInvariants : Prop := BlockInvariant State.reset

/-- R34: every step keeps the eleven items, from any state that meets them. The form is the model's choice in two
items: item 10 names RAW_T_RESET and RAW_H_RESET as the words of the present draw (log 3), and item 1 holds by the type
of `idx` (log 4). -/
def Obligations.StepKeepsInvariants : Prop :=
  ∀ s t : State, BlockInvariant s → step s = .next t → BlockInvariant t

/-- R34: the eleven items hold in every state reachable from reset by any sequence of host actions. Item 10 speaks of
the reset words in the model's form (log 3), and item 1 holds by the type of `idx` (log 4). -/
def Obligations.ReachableStatesMeetInvariants : Prop :=
  ∀ (inputs : List Inputs) (k : Nat) (t : State), runSteps k (withPending inputs State.reset) = .next t → BlockInvariant t

/-- R26, R27, R91: without a reset, `raw_t`, `raw_h` and `sample_valid` change only together, in the step of the
FRM.BYTE at offset 5 of a frame whose two checks pass, and then to the staged words. -/
def Obligations.SampleWrittenOnlyByCommit : Prop :=
  ∀ s t : State, step s = .next t → resetNext s = false →
    (t.rawT = s.rawT ∧ t.rawH = s.rawH ∧ t.sampleValid = s.sampleValid) ∨
      (s.fault = false ∧ s.active = true ∧ s.idx = 5 ∧ s.errT = false ∧
        nextWord s = some (encode (.frmByte s.crc)) ∧
        t.rawT = s.stgT ∧ t.rawH = s.stgH ∧ t.sampleValid = true ∧ t.ok = true)

/-- R23, R24: without a reset, `active` and `idx` change only by FRM.START, FRM.BYTE and FRM.ABORT, and as the rules
say. -/
def Obligations.SequencingTransitions : Prop :=
  ∀ s t : State, step s = .next t → resetNext s = false →
    (t.active = s.active ∧ t.idx = s.idx) ∨
      (nextWord s = some (encode .frmStart) ∧ t.active = true ∧ t.idx = 0) ∨
      (∃ d, nextWord s = some (encode (.frmByte d)) ∧ s.active = true ∧
        ((s.idx = 5 ∧ t.active = false ∧ t.idx = 0) ∨
          (s.idx.val < 5 ∧ t.active = true ∧ t.idx.val = s.idx.val + 1))) ∨
      (nextWord s = some (encode .frmAbort) ∧ s.active = true ∧ t.active = false ∧ t.idx = 0)

/-- R21, R22: without a reset, `crc` is written only by CRC.INIT, CRC.BYTE, FRM.START and FRM.BYTE at offsets 0, 1,
3 and 4, and `crc_match` becomes 1 only by a CRC.CHK whose operand equals `crc`. -/
def Obligations.CrcRegisterWriters : Prop :=
  ∀ s t : State, step s = .next t → resetNext s = false →
    (t.crc ≠ s.crc →
      nextWord s = some (encode .crcInit) ∨ (∃ d, nextWord s = some (encode (.crcByte d))) ∨
        nextWord s = some (encode .frmStart) ∨
        (∃ d, nextWord s = some (encode (.frmByte d))) ∧ s.active = true ∧ s.idx ∈ [0, 1, 3, 4]) ∧
      (s.crcMatch = false → t.crcMatch = true → nextWord s = some (encode (.crcChk s.crc)) ∧ s.active = false)

/-- R46: NOP, CRC.INIT, FRM.START and a repeated CRC.CHK are idempotent; CRC.BYTE and FRM.BYTE are not. -/
def Obligations.IdempotentCommands : Prop :=
  (∀ (i : Instr) (s t : State), (i = .nop ∨ i = .crcInit ∨ i = .frmStart ∨ ∃ d, i = .crcChk d) →
    exec i s = .next t → exec i t = .next t) ∧
    (∃ (d : Byte) (s t : State), s.fault = false ∧ exec (.crcByte d) s = .next t ∧ exec (.crcByte d) t ≠ .next t) ∧
    ∃ (d : Byte) (s t : State), s.fault = false ∧ exec (.frmByte d) s = .next t ∧ exec (.frmByte d) t ≠ .next t

/-- R86: after FRM.START the block is a function of `raw_t`, `raw_h` and `sample_valid` alone. The model's own
fields are taken equal; R34 item 9 makes the fault registers equal. -/
def Obligations.FrmStartForgetsTheRest : Prop :=
  ∀ s1 s2 : State, BlockInvariant s1 → BlockInvariant s2 → s1.fault = false → s2.fault = false →
    s1.rawT = s2.rawT → s1.rawH = s2.rawH → s1.sampleValid = s2.sampleValid →
    s1.draw = s2.draw → s1.pending = s2.pending →
    ∃ t : State, exec .frmStart s1 = .next t ∧ exec .frmStart s2 = .next t

/-- R25: `stg_t` and `stg_h` cannot be observed before a commit: two states that differ only in them, at an offset
where the next frame byte does not commit, show the same on every port after the same step. -/
def Obligations.StagingUnobservedBeforeCommit : Prop :=
  ∀ (s t u : State) (x y : Raw), (s.active = false ∨ s.idx.val < 5) → step s = .next t →
    step { s with stgT := x, stgH := y } = .next u → outputs u = outputs t

/-- R100: NOPs may stand anywhere: a list of commands run with its NOPs taken out leaves the same state. -/
def Obligations.NopsMayStandAnywhere : Prop :=
  ∀ (is : List Instr) (rest : List Inputs) (s : State),
    runSteps is.length (withPending (present is ++ rest) s) =
      runSteps (is.filter (· ≠ .nop)).length (withPending (present (is.filter (· ≠ .nop)) ++ rest) s)

/-! ### Sequences of commands that the spec names -/

/-- R64, R78: after `CRC.VERIFY b0 ... k` the flag `crc_match` says whether the checksum is `k`; for two bytes, whether
the group is valid. -/
def Obligations.CrcVerifyResult : Prop :=
  (∀ (s : State) (m : List Byte) (k : Byte) (rest : List Inputs), s.fault = false → s.active = false →
    runSteps (m.length + 2) (withPending (present (crcVerify m k) ++ rest) s) =
      .next { s with pending := rest, crc := crc8 m, crcMatch := decide (crc8 m = k) }) ∧
    ∀ b0 b1 k : Byte, groupValid b0 b1 k = decide (crc8 [b0, b1] = k)

/-- R93: the whole effect of `FRM.RX b0 ... b5`, from any state with `fault = 0`, whether a frame is in progress or
not. -/
def Obligations.FrameFunction : Prop :=
  ∀ (s : State) (b0 b1 b2 b3 b4 b5 : Byte) (rest : List Inputs), s.fault = false →
    let vt := decide (crc8 [b0, b1] = b2)
    let vh := decide (crc8 [b3, b4] = b5)
    runSteps 7 (withPending (present (frmRx b0 b1 b2 b3 b4 b5) ++ rest) s) = .next { s with
      pending := rest, active := false, idx := 0, done := true, errAbort := false, crcMatch := false,
      errT := !vt, errH := !vh, ok := vt && vh, stgT := b0 ++ b1, stgH := b3 ++ b4, crc := crc8 [b3, b4],
      rawT := if vt && vh then b0 ++ b1 else s.rawT
      rawH := if vt && vh then b3 ++ b4 else s.rawH
      sampleValid := (vt && vh) || s.sampleValid }

/-- R94: a frame that differs from a valid one in exactly one of its 48 bits, or in exactly two bits of one group, is
rejected: `ok = 0`, exactly the flag of the group that was hit is 1, and the sample is as before the frame. The frame
is the word `b0 ++ b1 ++ b2 ++ b3 ++ b4 ++ b5`; bits 47 to 24 are the temperature group. -/
def Obligations.CorruptedFrameRejected : Prop :=
  ∀ (s : State) (f g : BitVec 48) (i j : Fin 48) (rest : List Inputs), s.fault = false →
    groupValid (f.extractLsb' 40 8) (f.extractLsb' 32 8) (f.extractLsb' 24 8) = true →
    groupValid (f.extractLsb' 16 8) (f.extractLsb' 8 8) (f.extractLsb' 0 8) = true →
    (g = f ^^^ 1#48 <<< i.val ∨ (i ≠ j ∧ (i.val < 24 ↔ j.val < 24) ∧ g = f ^^^ 1#48 <<< i.val ^^^ 1#48 <<< j.val)) →
    ∃ t : State,
      runSteps 7 (withPending (present (frmRx (g.extractLsb' 40 8) (g.extractLsb' 32 8) (g.extractLsb' 24 8)
        (g.extractLsb' 16 8) (g.extractLsb' 8 8) (g.extractLsb' 0 8)) ++ rest) s) = .next t ∧
      t.ok = false ∧ t.errT = decide (24 ≤ i.val) ∧ t.errH = decide (i.val < 24) ∧
      t.rawT = s.rawT ∧ t.rawH = s.rawH ∧ t.sampleValid = s.sampleValid

/-! ### The host's side -/

/-- R103: the commands of any attempt, in either way of driving that the rule lets conform, issued with no frame in
progress and `fault = 0`, take no protocol fault and leave no frame in progress. That no FRM.ABORT follows an error
reported with the sixth byte is R103's word; that these functions are the host is the model's form (log 11). -/
def Obligations.AttemptNeverFaults : Prop :=
  ∀ (way : HostDriving) (a : BusAttempt) (s : State) (rest : List Inputs), s.fault = false → s.active = false →
    ∃ t : State,
      runSteps (attemptCommands way a).length (withPending (present (attemptCommands way a) ++ rest) s) = .next t ∧
        t.fault = false ∧ t.active = false ∧ t.pending = rest

/-- R108: a host that keeps the contract, from a block with no frame and `fault = 0`, never causes a protocol fault. -/
def Obligations.ContractPreventsFaults : Prop :=
  ∀ (is : List Instr) (s : State) (message : Bool) (rest : List Inputs), s.fault = false → s.active = false →
    keepsContract (.between message) is = true →
    ∃ t : State, runSteps is.length (withPending (present is ++ rest) s) = .next t ∧ t.fault = false

/-- R106, R148: a readSample makes at most the configured number of attempts, starts at most that many frames, and at
most one attempt completes a frame: the last one made. The loop goes on otherwise (R103 step 5): either the last
attempt made ended it, or as many attempts were made as the number and the bus allow. That an error reported with the
sixth byte ends the loop is the reading of log 11; that every other transport error is retried is that of log 17. -/
def Obligations.RetryBounded : Prop :=
  ∀ (way : HostDriving) (n : Nat) (bus : List BusAttempt),
    let made := attemptsMade way n bus
    let ends := fun a => transportOk a = true ∨ (way = .bytewise ∧ ∃ got, a = .readError got ∧ 6 ≤ got.length)
    made.length ≤ n ∧ made <+: bus ∧
      (readSampleCommands way n bus).count .frmStart ≤ n ∧
      (∀ (before after : List BusAttempt) (a : BusAttempt), made = before ++ a :: after →
        (ends a → after = [] ∧ ∀ b ∈ before, transportOk b = false) ∧
        ((∃ b0 b1 b2 b3 b4 b5, attemptCommands way a = frmRx b0 b1 b2 b3 b4 b5) → after = [])) ∧
      ((∃ before a, made = before ++ [a] ∧ ends a) ∨ made.length = min n bus.length)

/-- R95: the rows of the status table and its third column. After a complete frame the status byte reads as success
when both groups are valid and as a checksum mismatch otherwise; after a frame ended by FRM.ABORT, as a transport
error, and the attempt's boolean is false (that this row is read before the mismatch's, where both apply, is the
model's choice, log 14; the boolean is the same). In a state that meets R34 exactly the row of its flags applies. -/
def Obligations.StatusReportsFrame : Prop :=
  (∀ (s : State) (b0 b1 b2 b3 b4 b5 : Byte) (rest : List Inputs), s.fault = false →
    ∃ t : State, runSteps 7 (withPending (present (frmRx b0 b1 b2 b3 b4 b5) ++ rest) s) = .next t ∧
      frameReport (outputs t).status =
        (if groupValid b0 b1 b2 && groupValid b3 b4 b5 then .success else .mismatch) ∧
      reportReturn (frameReport (outputs t).status) = .value (groupValid b0 b1 b2 && groupValid b3 b4 b5)) ∧
  (∀ (s : State) (m : List Byte) (rest : List Inputs), s.fault = false → m.length < 6 →
    ∃ t : State,
      runSteps (m.length + 2) (withPending (present (.frmStart :: m.map .frmByte ++ [.frmAbort]) ++ rest) s) = .next t ∧
      frameReport (outputs t).status = .transportError ∧
      reportReturn (frameReport (outputs t).status) = .value false) ∧
  ∀ s : State, BlockInvariant s →
    let report := frameReport (outputs s).status
    (s.fault = true → report = .stopped ∧ reportReturn report = .noCounterpart) ∧
    (s.fault = false → s.active = true → report = .inProgress ∧ reportReturn report = .notYetReturned) ∧
    (s.fault = false → s.active = false → s.done = false → report = .noFrame ∧ reportReturn report = .notAttempted) ∧
    (s.fault = false → s.done = true → s.ok = true → report = .success ∧ reportReturn report = .value true) ∧
    (s.fault = false → s.done = true → s.ok = false → reportReturn report = .value false ∧
      report = if s.errAbort then .transportError else .mismatch)

/-- R103, R95, R128: a whole readSample, driven through the block from a state with no frame in progress and
`fault = 0`: it takes no protocol fault, and it returns true exactly when an attempt completed without a transport
error and its frame passed both checks, with that frame's words as the sample; it returns false when no attempt did and
the attempts are used up or a frame was completed by a read that reports its error after it (`ok` is disregarded), and
has not returned otherwise. A status byte with FAULT is never a success, whatever its frozen OK bit says. The host's functions are the model's form
of these rules (log 11, log 17). -/
def Obligations.ReadSampleReturns : Prop :=
  (∀ (way : HostDriving) (n : Nat) (bus : List BusAttempt) (s : State) (rest : List Inputs),
    s.fault = false → s.active = false →
    let commands := readSampleCommands way n bus
    let made := attemptsMade way n bus
    ∃ t : State, runSteps commands.length (withPending (present commands ++ rest) s) = .next t ∧
      t.fault = false ∧ t.active = false ∧ t.pending = rest ∧
      (∀ (before : List BusAttempt) (b0 b1 b2 b3 b4 b5 : Byte), made = before ++ [.delivered b0 b1 b2 b3 b4 b5] →
        readSampleResult way n bus (outputs t).status = .value (groupValid b0 b1 b2 && groupValid b3 b4 b5) ∧
        (groupValid b0 b1 b2 = true → groupValid b3 b4 b5 = true →
          t.rawT = rawWord b0 b1 ∧ t.rawH = rawWord b3 b4 ∧ t.sampleValid = true)) ∧
      ((∀ a ∈ made, transportOk a = false) →
        made.length = n ∨ (∃ got, .readError got ∈ made ∧ way = .bytewise ∧ 6 ≤ got.length) →
        readSampleResult way n bus (outputs t).status = .value false) ∧
      ((∀ a ∈ made, transportOk a = false) → made.length ≠ n →
        (∀ got, .readError got ∈ made → way = .bytewise → got.length < 6) →
        readSampleResult way n bus (outputs t).status = .notYetReturned)) ∧
  ∀ (way : HostDriving) (n : Nat) (bus : List BusAttempt) (status : BitVec 8), status.getLsbD 7 = true →
    readSampleResult way n bus status = .noCounterpart

/-- R25, R42, R90: a staging half is written without touching the other half, and the raw word has the earlier byte
in bits 15 to 8. -/
def Obligations.BigEndianStaging : Prop :=
  (∀ (w : Raw) (d : Byte), (setHigh w d).toNat = 256 * d.toNat + w.toNat % 256 ∧
    (setLow w d).toNat = 256 * (w.toNat / 256) + d.toNat) ∧
    ∀ msb lsb : Byte, (rawWord msb lsb).toNat = 256 * msb.toNat + lsb.toNat
end

