-- ==== Sys2Proof/Laws/Decode.lean ====
section
/-! SUPPORT. A command word is its two fields (30_encoding.md R56), and what decoding does with each opcode. -/

namespace Sys2Proof

@[simp] theorem opField_assemble (op : BitVec 4) (d : Byte) : opField (assemble op d) = op := by
  ext i hi
  rw [opField, BitVec.getElem_extractLsb', assemble, BitVec.getLsbD_append]
  simp [BitVec.getLsbD, BitVec.getElem_eq_testBit_toNat]

@[simp] theorem operandField_assemble (op : BitVec 4) (d : Byte) : operandField (assemble op d) = d := by
  ext i hi
  rw [operandField, BitVec.getElem_extractLsb', assemble, BitVec.getLsbD_append]
  simp [hi, BitVec.getLsbD, BitVec.getElem_eq_testBit_toNat]

/-- Every word is the assembly of its fields. -/
theorem assemble_fields (w : Cmd) : assemble (opField w) (operandField w) = w := by
  ext i hi
  rw [assemble, BitVec.getElem_append]
  split
  · simp [operandField, BitVec.getLsbD_eq_getElem, hi]
  · rename_i h
    have : 8 + (i - 8) = i := by omega
    simp [opField, this, BitVec.getLsbD_eq_getElem, hi]

/-- The number of a command word, from its two fields. -/
theorem assemble_toNat (op : BitVec 4) (d : Byte) : (assemble op d).toNat = 256 * op.toNat + d.toNat := by
  have h : (op ++ d : BitVec (4 + 8)).toNat = op.toNat <<< 8 ||| d.toNat := BitVec.toNat_append op d
  have hd := d.isLt
  have : op.toNat <<< 8 ||| d.toNat = op.toNat * 2 ^ 8 + d.toNat := by
    rw [Nat.shiftLeft_eq, Nat.mul_comm, Nat.two_pow_add_eq_or_of_lt hd]
  show (op ++ d : BitVec (4 + 8)).toNat = _
  omega

/-- A Z-format form answers its command exactly for a zero operand field. -/
theorem zForm_ok {i j : Instr} {d : Byte} : zForm i d = .ok j ↔ d = 0x00#8 ∧ i = j := by
  unfold zForm; split <;> simp [*]

/-- A Z-format form fails only for a non-zero operand field, and then with the operand's failure. -/
theorem zForm_error {i : Instr} {e : Illegal} {d : Byte} : zForm i d = .error e ↔ d ≠ 0x00#8 ∧ .operand = e := by
  unfold zForm; split <;> simp [*]

end Sys2Proof
end

