-- ==== Sys2Proof/Laws/HostSide.lean ====
section
/-! SUPPORT. What the host's functions can do, said once (42_system_and_host.md R103, R106). -/

namespace Sys2Proof.Machine

@[simp] theorem completesFrame_writeError (way : HostDriving) : completesFrame way .writeError = false := by
  cases way <;> rfl

@[simp] theorem completesFrame_delivered (way : HostDriving) (b0 b1 b2 b3 b4 b5 : Byte) :
    completesFrame way (.delivered b0 b1 b2 b3 b4 b5) = true := by
  cases way <;> rfl

@[simp] theorem completesFrame_readError (way : HostDriving) (got : List Byte) :
    completesFrame way (.readError got) = true ↔ way = .bytewise ∧ 6 ≤ got.length := by
  cases way <;> simp [completesFrame]

/-- An attempt without a transport error completes its frame. -/
theorem completesFrame_of_transportOk {a : BusAttempt} (way : HostDriving) (h : transportOk a = true) :
    completesFrame way a = true := by
  cases a <;> simp_all [transportOk]

/-- Everything that can complete a frame: a read without an error, or one whose error comes after its bytes. -/
theorem completesFrame_cases {way : HostDriving} {a : BusAttempt} (h : completesFrame way a = true) :
    transportOk a = true ∨ (way = .bytewise ∧ ∃ got, a = .readError got ∧ 6 ≤ got.length) := by
  cases a <;> simp_all [transportOk]

@[simp] theorem attemptsMade_zero (way : HostDriving) (bus : List BusAttempt) : attemptsMade way 0 bus = [] := by
  cases bus <;> rfl

@[simp] theorem attemptsMade_nil (way : HostDriving) (n : Nat) : attemptsMade way n [] = [] := by
  cases n <;> rfl

theorem attemptsMade_last {way : HostDriving} {a : BusAttempt} (n : Nat) (rest : List BusAttempt)
    (h : completesFrame way a = true) : attemptsMade way (n + 1) (a :: rest) = [a] := by
  simp [attemptsMade, h]

theorem attemptsMade_retry {way : HostDriving} {a : BusAttempt} (n : Nat) (rest : List BusAttempt)
    (h : completesFrame way a = false) :
    attemptsMade way (n + 1) (a :: rest) = a :: attemptsMade way n rest := by
  simp [attemptsMade, h]

end Sys2Proof.Machine
end

