-- ==== Sys2Proof/Laws/State.lean ====
section
/-! SUPPORT. One lemma per field per update of the state, true by `rfl`, so that no proof unfolds a record update. -/

namespace Sys2Proof.Machine

variable (s : State)

/-! ### `withPending` -/

@[simp] theorem withPending_crc (l : List Inputs) : (withPending l s).crc = s.crc := rfl
@[simp] theorem withPending_crcMatch (l : List Inputs) : (withPending l s).crcMatch = s.crcMatch := rfl
@[simp] theorem withPending_active (l : List Inputs) : (withPending l s).active = s.active := rfl
@[simp] theorem withPending_idx (l : List Inputs) : (withPending l s).idx = s.idx := rfl
@[simp] theorem withPending_stgT (l : List Inputs) : (withPending l s).stgT = s.stgT := rfl
@[simp] theorem withPending_stgH (l : List Inputs) : (withPending l s).stgH = s.stgH := rfl
@[simp] theorem withPending_rawT (l : List Inputs) : (withPending l s).rawT = s.rawT := rfl
@[simp] theorem withPending_rawH (l : List Inputs) : (withPending l s).rawH = s.rawH := rfl
@[simp] theorem withPending_sampleValid (l : List Inputs) : (withPending l s).sampleValid = s.sampleValid := rfl
@[simp] theorem withPending_done (l : List Inputs) : (withPending l s).done = s.done := rfl
@[simp] theorem withPending_ok (l : List Inputs) : (withPending l s).ok = s.ok := rfl
@[simp] theorem withPending_errT (l : List Inputs) : (withPending l s).errT = s.errT := rfl
@[simp] theorem withPending_errH (l : List Inputs) : (withPending l s).errH = s.errH := rfl
@[simp] theorem withPending_errAbort (l : List Inputs) : (withPending l s).errAbort = s.errAbort := rfl
@[simp] theorem withPending_fault (l : List Inputs) : (withPending l s).fault = s.fault := rfl
@[simp] theorem withPending_fcode (l : List Inputs) : (withPending l s).fcode = s.fcode := rfl
@[simp] theorem withPending_fcmd (l : List Inputs) : (withPending l s).fcmd = s.fcmd := rfl
@[simp] theorem withPending_draw (l : List Inputs) : (withPending l s).draw = s.draw := rfl
@[simp] theorem withPending_pending (l : List Inputs) : (withPending l s).pending = l := rfl

/-! ### `raiseFault` -/

@[simp] theorem raiseFault_crc (code : FaultCode) (w : Cmd) : (raiseFault code w s).crc = s.crc := rfl
@[simp] theorem raiseFault_crcMatch (code : FaultCode) (w : Cmd) : (raiseFault code w s).crcMatch = s.crcMatch := rfl
@[simp] theorem raiseFault_active (code : FaultCode) (w : Cmd) : (raiseFault code w s).active = s.active := rfl
@[simp] theorem raiseFault_idx (code : FaultCode) (w : Cmd) : (raiseFault code w s).idx = s.idx := rfl
@[simp] theorem raiseFault_stgT (code : FaultCode) (w : Cmd) : (raiseFault code w s).stgT = s.stgT := rfl
@[simp] theorem raiseFault_stgH (code : FaultCode) (w : Cmd) : (raiseFault code w s).stgH = s.stgH := rfl
@[simp] theorem raiseFault_rawT (code : FaultCode) (w : Cmd) : (raiseFault code w s).rawT = s.rawT := rfl
@[simp] theorem raiseFault_rawH (code : FaultCode) (w : Cmd) : (raiseFault code w s).rawH = s.rawH := rfl
@[simp] theorem raiseFault_sampleValid (code : FaultCode) (w : Cmd) : (raiseFault code w s).sampleValid = s.sampleValid := rfl
@[simp] theorem raiseFault_done (code : FaultCode) (w : Cmd) : (raiseFault code w s).done = s.done := rfl
@[simp] theorem raiseFault_ok (code : FaultCode) (w : Cmd) : (raiseFault code w s).ok = s.ok := rfl
@[simp] theorem raiseFault_errT (code : FaultCode) (w : Cmd) : (raiseFault code w s).errT = s.errT := rfl
@[simp] theorem raiseFault_errH (code : FaultCode) (w : Cmd) : (raiseFault code w s).errH = s.errH := rfl
@[simp] theorem raiseFault_errAbort (code : FaultCode) (w : Cmd) : (raiseFault code w s).errAbort = s.errAbort := rfl
@[simp] theorem raiseFault_fault (code : FaultCode) (w : Cmd) : (raiseFault code w s).fault = true := rfl
@[simp] theorem raiseFault_fcode (code : FaultCode) (w : Cmd) : (raiseFault code w s).fcode = code := rfl
@[simp] theorem raiseFault_fcmd (code : FaultCode) (w : Cmd) : (raiseFault code w s).fcmd = w := rfl
@[simp] theorem raiseFault_draw (code : FaultCode) (w : Cmd) : (raiseFault code w s).draw = s.draw := rfl
@[simp] theorem raiseFault_pending (code : FaultCode) (w : Cmd) : (raiseFault code w s).pending = s.pending := rfl

/-! ### `resetBlock` -/

@[simp] theorem resetBlock_crc : (resetBlock s).crc = 0xFF#8 := rfl
@[simp] theorem resetBlock_crcMatch : (resetBlock s).crcMatch = false := rfl
@[simp] theorem resetBlock_active : (resetBlock s).active = false := rfl
@[simp] theorem resetBlock_idx : (resetBlock s).idx = 0 := rfl
@[simp] theorem resetBlock_stgT : (resetBlock s).stgT = 0x0000#16 := rfl
@[simp] theorem resetBlock_stgH : (resetBlock s).stgH = 0x0000#16 := rfl
@[simp] theorem resetBlock_rawT : (resetBlock s).rawT = Config.rawTReset (s.draw + 1) := rfl
@[simp] theorem resetBlock_rawH : (resetBlock s).rawH = Config.rawHReset (s.draw + 1) := rfl
@[simp] theorem resetBlock_sampleValid : (resetBlock s).sampleValid = false := rfl
@[simp] theorem resetBlock_done : (resetBlock s).done = false := rfl
@[simp] theorem resetBlock_ok : (resetBlock s).ok = false := rfl
@[simp] theorem resetBlock_errT : (resetBlock s).errT = false := rfl
@[simp] theorem resetBlock_errH : (resetBlock s).errH = false := rfl
@[simp] theorem resetBlock_errAbort : (resetBlock s).errAbort = false := rfl
@[simp] theorem resetBlock_fault : (resetBlock s).fault = false := rfl
@[simp] theorem resetBlock_fcode : (resetBlock s).fcode = .noFault := rfl
@[simp] theorem resetBlock_fcmd : (resetBlock s).fcmd = 0x000#12 := rfl
@[simp] theorem resetBlock_draw : (resetBlock s).draw = s.draw + 1 := rfl
@[simp] theorem resetBlock_pending : (resetBlock s).pending = s.pending := rfl

/-! ### `startMessage` -/

@[simp] theorem startMessage_crc : (startMessage s).crc = crcInitial := rfl
@[simp] theorem startMessage_crcMatch : (startMessage s).crcMatch = false := rfl
@[simp] theorem startMessage_active : (startMessage s).active = s.active := rfl
@[simp] theorem startMessage_idx : (startMessage s).idx = s.idx := rfl
@[simp] theorem startMessage_stgT : (startMessage s).stgT = s.stgT := rfl
@[simp] theorem startMessage_stgH : (startMessage s).stgH = s.stgH := rfl
@[simp] theorem startMessage_rawT : (startMessage s).rawT = s.rawT := rfl
@[simp] theorem startMessage_rawH : (startMessage s).rawH = s.rawH := rfl
@[simp] theorem startMessage_sampleValid : (startMessage s).sampleValid = s.sampleValid := rfl
@[simp] theorem startMessage_done : (startMessage s).done = s.done := rfl
@[simp] theorem startMessage_ok : (startMessage s).ok = s.ok := rfl
@[simp] theorem startMessage_errT : (startMessage s).errT = s.errT := rfl
@[simp] theorem startMessage_errH : (startMessage s).errH = s.errH := rfl
@[simp] theorem startMessage_errAbort : (startMessage s).errAbort = s.errAbort := rfl
@[simp] theorem startMessage_fault : (startMessage s).fault = s.fault := rfl
@[simp] theorem startMessage_fcode : (startMessage s).fcode = s.fcode := rfl
@[simp] theorem startMessage_fcmd : (startMessage s).fcmd = s.fcmd := rfl
@[simp] theorem startMessage_draw : (startMessage s).draw = s.draw := rfl
@[simp] theorem startMessage_pending : (startMessage s).pending = s.pending := rfl

/-! ### `feedMessage` -/

@[simp] theorem feedMessage_crc (d : Byte) : (feedMessage d s).crc = crc8Byte s.crc d := rfl
@[simp] theorem feedMessage_crcMatch (d : Byte) : (feedMessage d s).crcMatch = false := rfl
@[simp] theorem feedMessage_active (d : Byte) : (feedMessage d s).active = s.active := rfl
@[simp] theorem feedMessage_idx (d : Byte) : (feedMessage d s).idx = s.idx := rfl
@[simp] theorem feedMessage_stgT (d : Byte) : (feedMessage d s).stgT = s.stgT := rfl
@[simp] theorem feedMessage_stgH (d : Byte) : (feedMessage d s).stgH = s.stgH := rfl
@[simp] theorem feedMessage_rawT (d : Byte) : (feedMessage d s).rawT = s.rawT := rfl
@[simp] theorem feedMessage_rawH (d : Byte) : (feedMessage d s).rawH = s.rawH := rfl
@[simp] theorem feedMessage_sampleValid (d : Byte) : (feedMessage d s).sampleValid = s.sampleValid := rfl
@[simp] theorem feedMessage_done (d : Byte) : (feedMessage d s).done = s.done := rfl
@[simp] theorem feedMessage_ok (d : Byte) : (feedMessage d s).ok = s.ok := rfl
@[simp] theorem feedMessage_errT (d : Byte) : (feedMessage d s).errT = s.errT := rfl
@[simp] theorem feedMessage_errH (d : Byte) : (feedMessage d s).errH = s.errH := rfl
@[simp] theorem feedMessage_errAbort (d : Byte) : (feedMessage d s).errAbort = s.errAbort := rfl
@[simp] theorem feedMessage_fault (d : Byte) : (feedMessage d s).fault = s.fault := rfl
@[simp] theorem feedMessage_fcode (d : Byte) : (feedMessage d s).fcode = s.fcode := rfl
@[simp] theorem feedMessage_fcmd (d : Byte) : (feedMessage d s).fcmd = s.fcmd := rfl
@[simp] theorem feedMessage_draw (d : Byte) : (feedMessage d s).draw = s.draw := rfl
@[simp] theorem feedMessage_pending (d : Byte) : (feedMessage d s).pending = s.pending := rfl

/-! ### `checkMessage` -/

@[simp] theorem checkMessage_crc (d : Byte) : (checkMessage d s).crc = s.crc := rfl
@[simp] theorem checkMessage_crcMatch (d : Byte) : (checkMessage d s).crcMatch = crcMatches s.crc d := rfl
@[simp] theorem checkMessage_active (d : Byte) : (checkMessage d s).active = s.active := rfl
@[simp] theorem checkMessage_idx (d : Byte) : (checkMessage d s).idx = s.idx := rfl
@[simp] theorem checkMessage_stgT (d : Byte) : (checkMessage d s).stgT = s.stgT := rfl
@[simp] theorem checkMessage_stgH (d : Byte) : (checkMessage d s).stgH = s.stgH := rfl
@[simp] theorem checkMessage_rawT (d : Byte) : (checkMessage d s).rawT = s.rawT := rfl
@[simp] theorem checkMessage_rawH (d : Byte) : (checkMessage d s).rawH = s.rawH := rfl
@[simp] theorem checkMessage_sampleValid (d : Byte) : (checkMessage d s).sampleValid = s.sampleValid := rfl
@[simp] theorem checkMessage_done (d : Byte) : (checkMessage d s).done = s.done := rfl
@[simp] theorem checkMessage_ok (d : Byte) : (checkMessage d s).ok = s.ok := rfl
@[simp] theorem checkMessage_errT (d : Byte) : (checkMessage d s).errT = s.errT := rfl
@[simp] theorem checkMessage_errH (d : Byte) : (checkMessage d s).errH = s.errH := rfl
@[simp] theorem checkMessage_errAbort (d : Byte) : (checkMessage d s).errAbort = s.errAbort := rfl
@[simp] theorem checkMessage_fault (d : Byte) : (checkMessage d s).fault = s.fault := rfl
@[simp] theorem checkMessage_fcode (d : Byte) : (checkMessage d s).fcode = s.fcode := rfl
@[simp] theorem checkMessage_fcmd (d : Byte) : (checkMessage d s).fcmd = s.fcmd := rfl
@[simp] theorem checkMessage_draw (d : Byte) : (checkMessage d s).draw = s.draw := rfl
@[simp] theorem checkMessage_pending (d : Byte) : (checkMessage d s).pending = s.pending := rfl

/-! ### `startFrame` -/

@[simp] theorem startFrame_crc : (startFrame s).crc = crcInitial := rfl
@[simp] theorem startFrame_crcMatch : (startFrame s).crcMatch = false := rfl
@[simp] theorem startFrame_active : (startFrame s).active = true := rfl
@[simp] theorem startFrame_idx : (startFrame s).idx = 0 := rfl
@[simp] theorem startFrame_stgT : (startFrame s).stgT = 0x0000#16 := rfl
@[simp] theorem startFrame_stgH : (startFrame s).stgH = 0x0000#16 := rfl
@[simp] theorem startFrame_rawT : (startFrame s).rawT = s.rawT := rfl
@[simp] theorem startFrame_rawH : (startFrame s).rawH = s.rawH := rfl
@[simp] theorem startFrame_sampleValid : (startFrame s).sampleValid = s.sampleValid := rfl
@[simp] theorem startFrame_done : (startFrame s).done = false := rfl
@[simp] theorem startFrame_ok : (startFrame s).ok = false := rfl
@[simp] theorem startFrame_errT : (startFrame s).errT = false := rfl
@[simp] theorem startFrame_errH : (startFrame s).errH = false := rfl
@[simp] theorem startFrame_errAbort : (startFrame s).errAbort = false := rfl
@[simp] theorem startFrame_fault : (startFrame s).fault = s.fault := rfl
@[simp] theorem startFrame_fcode : (startFrame s).fcode = s.fcode := rfl
@[simp] theorem startFrame_fcmd : (startFrame s).fcmd = s.fcmd := rfl
@[simp] theorem startFrame_draw : (startFrame s).draw = s.draw := rfl
@[simp] theorem startFrame_pending : (startFrame s).pending = s.pending := rfl

/-! ### `commitSample` -/

@[simp] theorem commitSample_crc : (commitSample s).crc = s.crc := rfl
@[simp] theorem commitSample_crcMatch : (commitSample s).crcMatch = s.crcMatch := rfl
@[simp] theorem commitSample_active : (commitSample s).active = s.active := rfl
@[simp] theorem commitSample_idx : (commitSample s).idx = s.idx := rfl
@[simp] theorem commitSample_stgT : (commitSample s).stgT = s.stgT := rfl
@[simp] theorem commitSample_stgH : (commitSample s).stgH = s.stgH := rfl
@[simp] theorem commitSample_rawT : (commitSample s).rawT = s.stgT := rfl
@[simp] theorem commitSample_rawH : (commitSample s).rawH = s.stgH := rfl
@[simp] theorem commitSample_sampleValid : (commitSample s).sampleValid = true := rfl
@[simp] theorem commitSample_done : (commitSample s).done = s.done := rfl
@[simp] theorem commitSample_ok : (commitSample s).ok = true := rfl
@[simp] theorem commitSample_errT : (commitSample s).errT = s.errT := rfl
@[simp] theorem commitSample_errH : (commitSample s).errH = s.errH := rfl
@[simp] theorem commitSample_errAbort : (commitSample s).errAbort = s.errAbort := rfl
@[simp] theorem commitSample_fault : (commitSample s).fault = s.fault := rfl
@[simp] theorem commitSample_fcode : (commitSample s).fcode = s.fcode := rfl
@[simp] theorem commitSample_fcmd : (commitSample s).fcmd = s.fcmd := rfl
@[simp] theorem commitSample_draw : (commitSample s).draw = s.draw := rfl
@[simp] theorem commitSample_pending : (commitSample s).pending = s.pending := rfl

/-! ### `abortFrame` -/

@[simp] theorem abortFrame_crc : (abortFrame s).crc = s.crc := rfl
@[simp] theorem abortFrame_crcMatch : (abortFrame s).crcMatch = s.crcMatch := rfl
@[simp] theorem abortFrame_active : (abortFrame s).active = false := rfl
@[simp] theorem abortFrame_idx : (abortFrame s).idx = 0 := rfl
@[simp] theorem abortFrame_stgT : (abortFrame s).stgT = s.stgT := rfl
@[simp] theorem abortFrame_stgH : (abortFrame s).stgH = s.stgH := rfl
@[simp] theorem abortFrame_rawT : (abortFrame s).rawT = s.rawT := rfl
@[simp] theorem abortFrame_rawH : (abortFrame s).rawH = s.rawH := rfl
@[simp] theorem abortFrame_sampleValid : (abortFrame s).sampleValid = s.sampleValid := rfl
@[simp] theorem abortFrame_done : (abortFrame s).done = true := rfl
@[simp] theorem abortFrame_ok : (abortFrame s).ok = false := rfl
@[simp] theorem abortFrame_errT : (abortFrame s).errT = s.errT := rfl
@[simp] theorem abortFrame_errH : (abortFrame s).errH = s.errH := rfl
@[simp] theorem abortFrame_errAbort : (abortFrame s).errAbort = true := rfl
@[simp] theorem abortFrame_fault : (abortFrame s).fault = s.fault := rfl
@[simp] theorem abortFrame_fcode : (abortFrame s).fcode = s.fcode := rfl
@[simp] theorem abortFrame_fcmd : (abortFrame s).fcmd = s.fcmd := rfl
@[simp] theorem abortFrame_draw : (abortFrame s).draw = s.draw := rfl
@[simp] theorem abortFrame_pending : (abortFrame s).pending = s.pending := rfl

/-! ### `endFrame`: the commit happens exactly when both groups passed (R88) -/

@[simp] theorem endFrame_crc (d : Byte) : (endFrame d s).crc = s.crc := by
  unfold endFrame; dsimp only; split <;> simp_all
@[simp] theorem endFrame_crcMatch (d : Byte) : (endFrame d s).crcMatch = s.crcMatch := by
  unfold endFrame; dsimp only; split <;> simp_all
@[simp] theorem endFrame_active (d : Byte) : (endFrame d s).active = false := by
  unfold endFrame; dsimp only; split <;> simp_all
@[simp] theorem endFrame_idx (d : Byte) : (endFrame d s).idx = 0 := by
  unfold endFrame; dsimp only; split <;> simp_all
@[simp] theorem endFrame_stgT (d : Byte) : (endFrame d s).stgT = s.stgT := by
  unfold endFrame; dsimp only; split <;> simp_all
@[simp] theorem endFrame_stgH (d : Byte) : (endFrame d s).stgH = s.stgH := by
  unfold endFrame; dsimp only; split <;> simp_all
@[simp] theorem endFrame_rawT (d : Byte) : (endFrame d s).rawT = bif framePassed s.errT (checksumDiffers s.crc d) then s.stgT else s.rawT := by
  unfold endFrame; dsimp only; split <;> simp_all
@[simp] theorem endFrame_rawH (d : Byte) : (endFrame d s).rawH = bif framePassed s.errT (checksumDiffers s.crc d) then s.stgH else s.rawH := by
  unfold endFrame; dsimp only; split <;> simp_all
@[simp] theorem endFrame_sampleValid (d : Byte) : (endFrame d s).sampleValid = (framePassed s.errT (checksumDiffers s.crc d) || s.sampleValid) := by
  unfold endFrame; dsimp only; split <;> simp_all
@[simp] theorem endFrame_done (d : Byte) : (endFrame d s).done = true := by
  unfold endFrame; dsimp only; split <;> simp_all
@[simp] theorem endFrame_ok (d : Byte) : (endFrame d s).ok = framePassed s.errT (checksumDiffers s.crc d) := by
  unfold endFrame; dsimp only; split <;> simp_all
@[simp] theorem endFrame_errT (d : Byte) : (endFrame d s).errT = s.errT := by
  unfold endFrame; dsimp only; split <;> simp_all
@[simp] theorem endFrame_errH (d : Byte) : (endFrame d s).errH = checksumDiffers s.crc d := by
  unfold endFrame; dsimp only; split <;> simp_all
@[simp] theorem endFrame_errAbort (d : Byte) : (endFrame d s).errAbort = s.errAbort := by
  unfold endFrame; dsimp only; split <;> simp_all
@[simp] theorem endFrame_fault (d : Byte) : (endFrame d s).fault = s.fault := by
  unfold endFrame; dsimp only; split <;> simp_all
@[simp] theorem endFrame_fcode (d : Byte) : (endFrame d s).fcode = s.fcode := by
  unfold endFrame; dsimp only; split <;> simp_all
@[simp] theorem endFrame_fcmd (d : Byte) : (endFrame d s).fcmd = s.fcmd := by
  unfold endFrame; dsimp only; split <;> simp_all
@[simp] theorem endFrame_draw (d : Byte) : (endFrame d s).draw = s.draw := by
  unfold endFrame; dsimp only; split <;> simp_all
@[simp] theorem endFrame_pending (d : Byte) : (endFrame d s).pending = s.pending := by
  unfold endFrame; dsimp only; split <;> simp_all

/-! ### `takeFrameByte`: the fields no offset writes (R87, R88) -/

@[simp] theorem takeFrameByte_crcMatch (d : Byte) : (takeFrameByte d s).crcMatch = s.crcMatch := by
  unfold takeFrameByte; split <;> simp
@[simp] theorem takeFrameByte_errAbort (d : Byte) : (takeFrameByte d s).errAbort = s.errAbort := by
  unfold takeFrameByte; split <;> simp
@[simp] theorem takeFrameByte_fault (d : Byte) : (takeFrameByte d s).fault = s.fault := by
  unfold takeFrameByte; split <;> simp
@[simp] theorem takeFrameByte_fcode (d : Byte) : (takeFrameByte d s).fcode = s.fcode := by
  unfold takeFrameByte; split <;> simp
@[simp] theorem takeFrameByte_fcmd (d : Byte) : (takeFrameByte d s).fcmd = s.fcmd := by
  unfold takeFrameByte; split <;> simp
@[simp] theorem takeFrameByte_draw (d : Byte) : (takeFrameByte d s).draw = s.draw := by
  unfold takeFrameByte; split <;> simp
@[simp] theorem takeFrameByte_pending (d : Byte) : (takeFrameByte d s).pending = s.pending := by
  unfold takeFrameByte; split <;> simp

/-! ### `takeFrameByte` at each offset (R41, R87) -/

theorem takeFrameByte_temperature_msb (d : Byte) (h : s.idx = 0) : takeFrameByte d s =
    { s with stgT := setHigh s.stgT d, crc := crc8Byte crcInitial d, idx := 1 } := by
  unfold takeFrameByte; rw [h]

theorem takeFrameByte_temperature_lsb (d : Byte) (h : s.idx = 1) : takeFrameByte d s =
    { s with stgT := setLow s.stgT d, crc := crc8Byte s.crc d, idx := 2 } := by
  unfold takeFrameByte; rw [h]

theorem takeFrameByte_temperature_crc (d : Byte) (h : s.idx = 2) : takeFrameByte d s =
    { s with errT := checksumDiffers s.crc d, idx := 3 } := by
  unfold takeFrameByte; rw [h]

theorem takeFrameByte_humidity_msb (d : Byte) (h : s.idx = 3) : takeFrameByte d s =
    { s with stgH := setHigh s.stgH d, crc := crc8Byte crcInitial d, idx := 4 } := by
  unfold takeFrameByte; rw [h]

theorem takeFrameByte_humidity_lsb (d : Byte) (h : s.idx = 4) : takeFrameByte d s =
    { s with stgH := setLow s.stgH d, crc := crc8Byte s.crc d, idx := 5 } := by
  unfold takeFrameByte; rw [h]

theorem takeFrameByte_humidity_crc (d : Byte) (h : s.idx = 5) : takeFrameByte d s =
    endFrame d s := by
  unfold takeFrameByte; rw [h]

end Sys2Proof.Machine
end

