-- ==== Sys2Proof/Laws/Ops.lean ====
section
/-! SUPPORT. What each shared operation can do, said once, so that later proofs cite these lemmas instead of
unfolding the operations: the checks before a command, the effect of each command, one accepted word, one step. -/

namespace Sys2Proof.Machine

/-- The fault the state check gives a command, by the table of 60_exceptions.md R116. -/
def stateFault : Instr → State → Option FaultCode
  | .nop, _ => none
  | .crcInit, s => crcBlocked s
  | .crcByte _, s => crcBlocked s
  | .crcChk _, s => crcBlocked s
  | .frmStart, _ => none
  | .frmByte _, s => frameBlocked s
  | .frmAbort, s => frameBlocked s

/-- The effect of a command that passes all checks (R75 to R77, R86 to R89, R100). -/
def effectOf : Instr → State → State
  | .nop, s => s
  | .crcInit, s => startMessage s
  | .crcByte d, s => feedMessage d s
  | .crcChk d, s => checkMessage d s
  | .frmStart, s => startFrame s
  | .frmByte d, s => takeFrameByte d s
  | .frmAbort, s => abortFrame s

/-! ### The checks before a command -/

theorem crcBlocked_idle {s : State} (h : s.active = false) : crcBlocked s = none := by simp [crcBlocked, h]

theorem crcBlocked_busy {s : State} (h : s.active = true) : crcBlocked s = some .crcBusy := by simp [crcBlocked, h]

theorem frameBlocked_idle {s : State} (h : s.active = false) : frameBlocked s = some .frmIdle := by
  simp [frameBlocked, h]

theorem frameBlocked_busy {s : State} (h : s.active = true) : frameBlocked s = none := by simp [frameBlocked, h]

@[simp] theorem crcBlocked_eq_none {s : State} : crcBlocked s = none ↔ s.active = false := by
  unfold crcBlocked; split <;> simp_all

@[simp] theorem frameBlocked_eq_none {s : State} : frameBlocked s = none ↔ s.active = true := by
  unfold frameBlocked; split <;> simp_all

theorem perform_stopped {i : Instr} {b : Option FaultCode} {t s : State} (h : s.fault = true) :
    perform i b t s = .next s := by simp [perform, h]

theorem perform_blocked {i : Instr} {c : FaultCode} {t s : State} (h : s.fault = false) :
    perform i (some c) t s = .next (raiseFault c (encode i) s) := by simp [perform, h]

theorem perform_runs {i : Instr} {t s : State} (h : s.fault = false) : perform i none t s = .next t := by
  simp [perform, h]

/-- Everything `perform` can do. -/
theorem perform_cases {i : Instr} {b : Option FaultCode} {t s u : State} (h : perform i b t s = .next u) :
    (s.fault = true ∧ u = s) ∨
      (∃ c, s.fault = false ∧ b = some c ∧ u = raiseFault c (encode i) s) ∨
      (s.fault = false ∧ b = none ∧ u = t) := by
  cases hf : s.fault with
  | true => rw [perform_stopped hf] at h; cases h; exact .inl ⟨rfl, rfl⟩
  | false =>
    cases b with
    | some c => rw [perform_blocked hf] at h; cases h; exact .inr (.inl ⟨c, rfl, rfl, rfl⟩)
    | none => rw [perform_runs hf] at h; cases h; exact .inr (.inr ⟨rfl, rfl, rfl⟩)

/-! ### One decoded command -/

/-- Every command is `perform` of its state check and its effect. -/
theorem exec_eq_perform (i : Instr) (s : State) : exec i s = perform i (stateFault i s) (effectOf i s) s := by
  cases i <;> rfl

theorem exec_stopped (i : Instr) {s : State} (h : s.fault = true) : exec i s = .next s := by
  rw [exec_eq_perform, perform_stopped h]

/-- Everything a decoded command can do. -/
theorem exec_cases {i : Instr} {s u : State} (h : exec i s = .next u) :
    (s.fault = true ∧ u = s) ∨
      (∃ c, s.fault = false ∧ stateFault i s = some c ∧ u = raiseFault c (encode i) s) ∨
      (s.fault = false ∧ stateFault i s = none ∧ u = effectOf i s) :=
  perform_cases (exec_eq_perform i s ▸ h)

/-- A state fault is CRC_BUSY in a frame or FRM_IDLE outside one (R116). -/
theorem stateFault_cases {i : Instr} {s : State} {c : FaultCode} (h : stateFault i s = some c) :
    (c = .crcBusy ∧ s.active = true) ∨ (c = .frmIdle ∧ s.active = false) := by
  cases i <;> cases ha : s.active <;> simp_all [stateFault, crcBlocked, frameBlocked]

/-! ### One command word, one moment of the ports, one step -/

theorem acceptWord_stopped (w : Cmd) {s : State} (h : s.fault = true) : acceptWord w s = .next s := by
  simp [acceptWord, h]

theorem acceptWord_illegal {w : Cmd} {e : Illegal} {s : State} (h : s.fault = false) (hw : decode w = .error e) :
    acceptWord w s = .next (raiseFault (illegalCode e) w s) := by simp [acceptWord, h, hw]

/-- A word that decodes to a command runs that command, in a stopped block too. -/
theorem acceptWord_command {w : Cmd} {i : Instr} {s : State} (hw : decode w = .ok i) :
    acceptWord w s = exec i s := by
  cases h : s.fault with
  | true => rw [acceptWord_stopped w h, exec_stopped i h]
  | false => simp [acceptWord, h, hw]

theorem acceptInputs_reset {p : Inputs} (s : State) (h : p.rst = true) : acceptInputs p s = .next (resetBlock s) := by
  simp [acceptInputs, h]

theorem acceptInputs_word {p : Inputs} (s : State) (h : p.rst = false) (hv : p.cmdValid = true) :
    acceptInputs p s = acceptWord p.cmd s := by simp [acceptInputs, h, hv]

theorem acceptInputs_idle {p : Inputs} (s : State) (h : p.rst = false) (hv : p.cmdValid = false) :
    acceptInputs p s = .next s := by simp [acceptInputs, h, hv]

@[simp] theorem presentWord_rst (w : Cmd) : (presentWord w).rst = false := rfl
@[simp] theorem presentWord_cmdValid (w : Cmd) : (presentWord w).cmdValid = true := rfl
@[simp] theorem presentWord_cmd (w : Cmd) : (presentWord w).cmd = w := rfl
@[simp] theorem assertReset_rst : assertReset.rst = true := rfl

theorem step_idle {s : State} (h : s.pending = []) : step s = .next s := by simp [step, acceptNext, h]

theorem step_inputs {s : State} {p : Inputs} {rest : List Inputs} (h : s.pending = p :: rest) :
    step s = acceptInputs p (withPending rest s) := by simp [step, acceptNext, h]

/-- Everything one accepted word can do: nothing in a stopped block, a decode fault, a state fault, the command. -/
theorem acceptWord_cases {w : Cmd} {s u : State} (h : acceptWord w s = .next u) :
    (s.fault = true ∧ u = s) ∨
      (∃ e, s.fault = false ∧ decode w = .error e ∧ u = raiseFault (illegalCode e) w s) ∨
      (∃ i c, s.fault = false ∧ decode w = .ok i ∧ stateFault i s = some c ∧ u = raiseFault c (encode i) s) ∨
      (∃ i, s.fault = false ∧ decode w = .ok i ∧ stateFault i s = none ∧ u = effectOf i s) := by
  cases hw : decode w with
  | error e =>
    cases hf : s.fault with
    | true => rw [acceptWord_stopped w hf] at h; cases h; exact .inl ⟨rfl, rfl⟩
    | false => rw [acceptWord_illegal hf hw] at h; cases h; exact .inr (.inl ⟨e, rfl, rfl, rfl⟩)
  | ok i =>
    rw [acceptWord_command hw] at h
    rcases exec_cases h with hs | ⟨c, hf, hc, hu⟩ | ⟨hf, hn, hu⟩
    · exact .inl hs
    · exact .inr (.inr (.inl ⟨i, c, hf, rfl, hc, hu⟩))
    · exact .inr (.inr (.inr ⟨i, hf, rfl, hn, hu⟩))

/-- Everything one step can do. -/
theorem step_cases {s u : State} (h : step s = .next u) :
    (s.pending = [] ∧ u = s) ∨
      ∃ p rest, s.pending = p :: rest ∧
        ((p.rst = true ∧ u = resetBlock (withPending rest s)) ∨
          (p.rst = false ∧ p.cmdValid = false ∧ u = withPending rest s) ∨
          (p.rst = false ∧ p.cmdValid = true ∧ acceptWord p.cmd (withPending rest s) = .next u)) := by
  cases hp : s.pending with
  | nil => rw [step_idle hp] at h; cases h; exact .inl ⟨rfl, rfl⟩
  | cons p rest =>
    rw [step_inputs hp] at h
    refine .inr ⟨p, rest, rfl, ?_⟩
    cases hr : p.rst with
    | true => rw [acceptInputs_reset _ hr] at h; cases h; exact .inl ⟨rfl, rfl⟩
    | false =>
      cases hv : p.cmdValid with
      | false => rw [acceptInputs_idle _ hr hv] at h; cases h; exact .inr (.inl ⟨rfl, rfl, rfl⟩)
      | true => rw [acceptInputs_word _ hr hv] at h; exact .inr (.inr ⟨rfl, rfl, h⟩)

/-! ### Words and halves -/

/-- Filling both halves of a staging register, the high one first, gives the big-endian word (R42, R90). -/
theorem setLow_setHigh (w : Raw) (a b : Byte) : setLow (setHigh w a) b = rawWord a b := by
  simp only [setLow, setHigh, rawWord]
  congr 1
  ext i hi
  rw [BitVec.getElem_extractLsb', BitVec.getLsbD_append]
  simp [BitVec.getElem_eq_testBit_toNat, BitVec.getLsbD]

end Sys2Proof.Machine
end

