-- ==== Sys2Proof/Laws/PerInstr.lean ====
section
/-! SUPPORT. Statements about every command, made per constructor. -/

namespace Sys2Proof

/-- The word of a command is a legal encoding (30_encoding.md R55, R59, R60) and selects its own row of R58. -/
def Laws.EncodeWellFormed.Statement (i : Instr) : Prop :=
  wellFormedFields (opField (encode i)) (operandField (encode i)) = true ∧ selects (encode i) (rowOf i) = true

theorem Laws.EncodeWellFormed.nop : Laws.EncodeWellFormed.Statement .nop := by
  unfold Laws.EncodeWellFormed.Statement; decide

theorem Laws.EncodeWellFormed.crcInit : Laws.EncodeWellFormed.Statement .crcInit := by
  unfold Laws.EncodeWellFormed.Statement; decide

theorem Laws.EncodeWellFormed.crcByte (d : Byte) : Laws.EncodeWellFormed.Statement (.crcByte d) := by
  unfold Laws.EncodeWellFormed.Statement; revert d; decide

theorem Laws.EncodeWellFormed.crcChk (d : Byte) : Laws.EncodeWellFormed.Statement (.crcChk d) := by
  unfold Laws.EncodeWellFormed.Statement; revert d; decide

theorem Laws.EncodeWellFormed.frmStart : Laws.EncodeWellFormed.Statement .frmStart := by
  unfold Laws.EncodeWellFormed.Statement; decide

theorem Laws.EncodeWellFormed.frmByte (d : Byte) : Laws.EncodeWellFormed.Statement (.frmByte d) := by
  unfold Laws.EncodeWellFormed.Statement; revert d; decide

theorem Laws.EncodeWellFormed.frmAbort : Laws.EncodeWellFormed.Statement .frmAbort := by
  unfold Laws.EncodeWellFormed.Statement; decide

end Sys2Proof
end

