-- ==== Sys2Proof/Tests/Slice0.lean ====
section
/-! SUPPORT. The model's own tests: the smoke tests of the well-formedness checks, words written out from the spec's
encodings, one-step tests from the vectors of 95_test_vectors.md, and for every statement with hypotheses a witness
that meets them. -/

namespace Sys2Proof.Tests

open Sys2Proof Sys2Proof.Machine

/-! ### Helpers: small states and the parts of an outcome -/

/-- The state of a next outcome. -/
def stateOf : Host.Outcome State Fault Refusal → Option State
  | .next t => some t
  | .fault _ => none
  | .refused _ => none

/-- The ports after an outcome. -/
def portsOf (o : Host.Outcome State Fault Refusal) : Option Outputs := (stateOf o).map outputs

/-- The state after program B's line 7 of 95_test_vectors.md: a good frame has ended. -/
def idle : State :=
  { State.reset with
    crc := 0x1C#8, stgT := 0x648B#16, stgH := 0xA133#16, rawT := 0x648B#16, rawH := 0xA133#16,
    sampleValid := true, done := true, ok := true }

/-- A frame in progress at an offset. -/
def busy (k : Fin 6) : State := { startFrame idle with idx := k }

/-- A stopped block (vector S7). -/
def stopped : State := raiseFault .frmIdle 0x900#12 idle

/-- The same state with these host actions pending. -/
def facing (l : List Inputs) (s : State) : State := withPending l s

/-! ### The checks of WellFormed, each with a word it refuses -/

theorem test_wellFormed_refuses_reserved_opcode :
    wellFormedFields (opField 0x400#12) (operandField 0x400#12) = false ∧
      wellFormedFields (opField 0x7FF#12) (operandField 0x7FF#12) = false ∧
      wellFormedFields (opField 0xB00#12) (operandField 0xB00#12) = false ∧
      wellFormedFields (opField 0xFFF#12) (operandField 0xFFF#12) = false := by decide

theorem test_wellFormed_refuses_nonzero_operand :
    wellFormedFields (opField 0x001#12) (operandField 0x001#12) = false ∧
      wellFormedFields (opField 0x1FF#12) (operandField 0x1FF#12) = false ∧
      wellFormedFields (opField 0x8FF#12) (operandField 0x8FF#12) = false ∧
      wellFormedFields (opField 0xA80#12) (operandField 0xA80#12) = false := by decide

theorem test_wellFormed_accepts_zero_operand :
    wellFormedFields (opField 0x200#12) (operandField 0x200#12) = true ∧
      wellFormedFields (opField 0xA00#12) (operandField 0xA00#12) = true := by decide

/-! ### Words written out bit by bit from R58 (vectors E1 to E9, E14) -/

theorem test_decode_nop : decode 0b000000000000#12 = .ok .nop := by decide
theorem test_decode_crcInit : decode 0b000100000000#12 = .ok .crcInit := by decide
theorem test_decode_crcByte : decode 0b001010111110#12 = .ok (.crcByte 0xBE#8) := by decide
theorem test_decode_crcChk : decode 0b001110010010#12 = .ok (.crcChk 0x92#8) := by decide
theorem test_decode_frmStart : decode 0b100000000000#12 = .ok .frmStart := by decide
theorem test_decode_frmByte : decode 0b100100011100#12 = .ok (.frmByte 0x1C#8) := by decide
theorem test_decode_frmAbort : decode 0b101000000000#12 = .ok .frmAbort := by decide

theorem test_decodeTableWord :
    decodeTableWord 16 0x91C = some (.frmByte 0x1C#8) ∧ decodeTableWord 16 0x101 = none ∧
      decodeTableWord 16 0x1000 = none := by decide

/-! ### The CRC function (vectors V1.5, V1.7, V2.9, V3.6, V3.7, V3.20) -/

theorem test_crc8Bit : crc8Bit 0x80#8 = 0x31#8 ∧ crc8Bit 0xFF#8 = 0xCF#8 ∧ crc8Bit 0x7F#8 = 0xFE#8 := by decide
set_option maxRecDepth 4000 in
theorem test_crc8_order :
    crc8 [0xBE#8, 0xEF#8] = 0x92#8 ∧ crc8 [0xEF#8, 0xBE#8] = 0xCE#8 ∧ crc8 [0x80#8, 0x00#8] = 0xA2#8 := by decide
set_option maxRecDepth 4000 in
theorem test_crc8_digits :
    crc8 [0x31#8, 0x32#8, 0x33#8, 0x34#8, 0x35#8, 0x36#8, 0x37#8, 0x38#8, 0x39#8] = 0xF7#8 := by decide

/-! ### One step each (vectors of sections 4 and 5) -/

theorem test_nop_in_frame : stateOf (exec .nop (busy 3)) = some (busy 3) := by decide

theorem test_crcInit_clears :
    stateOf (exec .crcInit { idle with crc := 0x92#8, crcMatch := true }) =
      some { idle with crc := 0xFF#8, crcMatch := false } := by decide
theorem test_crcInit_in_frame :
    (stateOf (exec .crcInit (busy 0))).map (fun t => (t.fcode, t.fcmd)) = some (.crcBusy, 0x100#12) := by decide

theorem test_crcByte_continues :
    (stateOf (exec (.crcByte 0xEF#8) { idle with crc := 0x0C#8, crcMatch := true })).map
      (fun t => (t.crc, t.crcMatch)) = some (0x92#8, false) := by decide
theorem test_crcByte_in_frame :
    (portsOf (exec (.crcByte 0x11#8) (busy 0))).map (fun o => (o.status, o.fcode, o.fcmd, o.crcOut)) =
      some (0xC1#8, 3#3, 0x211#12, 0xFF#8) := by decide

theorem test_crcChk_equal :
    (stateOf (exec (.crcChk 0x92#8) { idle with crc := 0x92#8 })).map (fun t => (t.crc, t.crcMatch)) =
      some (0x92#8, true) := by decide
theorem test_crcChk_differs :
    (stateOf (exec (.crcChk 0x93#8) { idle with crc := 0x92#8, crcMatch := true })).map (fun t => t.crcMatch) =
      some false := by decide

theorem test_frmStart_keeps_sample :
    (portsOf (exec .frmStart idle)).map (fun o => (o.status, o.rawT, o.crcOut)) =
      some (0x41#8, 0x648B#16, 0xFF#8) := by decide
theorem test_frmStart_restarts :
    (stateOf (exec .frmStart { busy 1 with stgT := 0xAA00#16, crc := 0x8B#8 })).map
      (fun t => (t.stgT, t.idx, t.crc)) = some (0x0000#16, 0, 0xFF#8) := by decide

theorem test_frmByte_humidity_msb :
    (stateOf (exec (.frmByte 0xA1#8) { busy 3 with stgT := 0x648B#16, crc := 0xC7#8 })).map
      (fun t => (t.idx, t.crc, t.stgT, t.stgH)) = some (4, 0x61#8, 0x648B#16, 0xA100#16) := by decide
theorem test_frmByte_last_of_bad_frame :
    (portsOf (exec (.frmByte 0x7D#8)
      { busy 5 with stgT := 0x1234#16, stgH := 0x5679#16, crc := 0x4C#8 })).map
      (fun o => (o.status, o.rawT, o.rawH, o.crcOut)) = some (0x52#8, 0x648B#16, 0xA133#16, 0x4C#8) := by decide

theorem test_frmAbort_keeps_bytes :
    (stateOf (exec .frmAbort { busy 2 with sampleValid := false, stgT := 0x1234#16, crc := 0x37#8 })).map
      (fun t => (statusByte t, t.idx, t.crc, t.stgT)) = some (0x22#8, 0, 0x37#8, 0x1234#16) := by decide
theorem test_frmAbort_idle :
    (stateOf (exec .frmAbort idle)).map (fun t => (t.fcode, t.fcmd)) = some (.frmIdle, 0xA00#12) := by decide

/-- Decode faults win over state faults (vectors S12, S13). -/
theorem test_step_decode_fault_first :
    (portsOf (step (facing [presentWord 0x1FF#12] (busy 0)))).map (fun o => (o.fcode, o.fcmd)) =
        some (2#3, 0x1FF#12) ∧
      (portsOf (step (facing [presentWord 0xA01#12] idle))).map (fun o => (o.fcode, o.fcmd)) =
        some (2#3, 0xA01#12) := by decide

/-- A seventh byte (vector S7), and reset beside a command (R137). -/
theorem test_step_seventh_byte_and_reset :
    (portsOf (step (facing [presentWord 0x900#12] idle))).map (fun o => (o.status, o.rawT)) =
        some (0xC6#8, 0x648B#16) ∧
      (portsOf (step (facing [{ rst := true, cmdValid := true, cmd := 0x900#12 }] stopped))).map
        (fun o => (o.status, o.crcOut, o.fcode)) = some (0x00#8, 0xFF#8, 0#3) := by decide

/-- The first command after reset, placed by `withFetchWord` (vector K2). -/
theorem test_step_first_command :
    (portsOf (step (State.reset.withFetchWord 16 0x200))).map (fun o => (o.crcOut, o.status)) =
      some (0xAC#8, 0x00#8) := by decide

/-- A line with a comment reads as its command, RESET as a reset, anything else not at all (R63). -/
theorem test_readLine :
    readLine ['F', 'R', 'M', '.', 'B', 'Y', 'T', 'E', ' ', '0', 'x', '1', 'C', ' ', ';', 'k'] =
        some (.command (.frmByte 0x1C#8)) ∧
      readLine resetText = some .reset ∧ readLine [';', 'x'] = some .blank ∧
      readLine ['N', 'O', 'P', 'E'] = none := by decide

/-! ### Witnesses: states and operands that meet the hypotheses of each statement -/

/-- ReservedOpcodeFaults, NonzeroOperandFaults: both ends of each reserved range, and words of each Z-format opcode. -/
theorem test_witness_illegal_words :
    (facing [presentWord 0x400#12] idle).fault = false ∧
      (facing [presentWord 0x400#12] idle).pending = presentWord 0x400#12 :: [] ∧
      decode 0x400#12 = .error .opcode ∧ decode 0x7FF#12 = .error .opcode ∧ decode 0xB00#12 = .error .opcode ∧
      decode 0xFFF#12 = .error .opcode ∧ decode 0x001#12 = .error .operand ∧ decode 0x0FF#12 = .error .operand ∧
      decode 0x101#12 = .error .operand ∧ decode 0x8FF#12 = .error .operand ∧
      decode 0xA80#12 = .error .operand := by decide

set_option maxRecDepth 4000 in
/-- GroupErrorDetection, CorruptedFrameRejected: a valid group and a valid frame, and bits in both groups. -/
theorem test_witness_valid_frame :
    (let g : BitVec 24 := 0x648BC7;
      groupValid (g.extractLsb' 16 8) (g.extractLsb' 8 8) (g.extractLsb' 0 8) = true) ∧
      (let f : BitVec 48 := 0x648BC7A1331C;
        groupValid (f.extractLsb' 40 8) (f.extractLsb' 32 8) (f.extractLsb' 24 8) = true ∧
          groupValid (f.extractLsb' 16 8) (f.extractLsb' 8 8) (f.extractLsb' 0 8) = true) ∧
      (0 : Fin 24) ≠ 23 ∧ ((0 : Fin 48).val < 24 ↔ (23 : Fin 48).val < 24) ∧
      ((24 : Fin 48).val < 24 ↔ (47 : Fin 48).val < 24) ∧ (24 : Fin 48) ≠ 47 ∧ idle.fault = false := by decide

/-- WordCounts, NopResult, CrcInitResult, CrcByteResult, CrcChkResult, FrmStartResult, FrmAbortResult,
CrcVerifyResult, FrameFunction, AttemptNeverFaults: a block with no frame and one with a frame, neither stopped, and a
non-zero operand field. -/
theorem test_witness_idle_and_busy :
    idle.fault = false ∧ idle.active = false ∧ (busy 0).fault = false ∧ (busy 0).active = true ∧
      (0x01#8 : Byte) ≠ 0x00#8 ∧ (0xFF#8 : Byte) ≠ 0x00#8 := by decide

/-- FrmByteResult: every offset from 0 to 4. -/
theorem test_witness_each_offset :
    (busy 0).idx = 0 ∧ (busy 1).idx = 1 ∧ (busy 2).idx = 2 ∧ (busy 3).idx = 3 ∧ (busy 4).idx = 4 ∧
      (busy 4).active = true ∧ (busy 4).fault = false := by decide

/-- FrmByteEndsFrame: a matching last byte, a differing one, and one after a temperature mismatch. -/
theorem test_witness_last_offset :
    (busy 5).fault = false ∧ (busy 5).active = true ∧ (busy 5).idx = 5 ∧ (busy 5).errT = false ∧
      (busy 5).crc = 0xFF#8 ∧ (busy 5).crc ≠ 0x00#8 ∧ ({ busy 5 with errT := true } : State).errT = true := by decide

/-- FrmByteEndsFrame, second part: the step at offset 5 and the byte after it both answer. -/
theorem test_witness_seventh_byte : ∃ t u, exec (.frmByte 0xFF#8) (busy 5) = .next t ∧
    exec (.frmByte 0x00#8) t = .next u := ⟨_, _, rfl, rfl⟩

/-- StepRunsDecodedCommand: a presented word that decodes. -/
theorem test_witness_presented_command :
    (facing [presentWord 0x91C#12, assertReset] idle).pending = presentWord 0x91C#12 :: [assertReset] ∧
      decode 0x91C#12 = .ok (.frmByte 0x1C#8) := by decide

/-- StepOrderOfChecks, IdleHostHoldsState, ResetWinsAndResetsAll: one moment of the ports for each item. -/
theorem test_witness_each_check :
    (facing [assertReset] idle).pending = assertReset :: [] ∧ assertReset.rst = true ∧
      (presentWord 0x400#12).rst = false ∧ (presentWord 0x400#12).cmdValid = true ∧ stopped.fault = true ∧
      reservedOpcode (opField (presentWord 0x400#12).cmd) = true ∧
      zFormatOpcode (opField (presentWord 0xA01#12).cmd) = true ∧ operandField (presentWord 0xA01#12).cmd ≠ 0x00#8 ∧
      (presentWord 0x100#12).cmd = encode .crcInit ∧ (presentWord 0x2FF#12).cmd = encode (.crcByte 0xFF#8) ∧
      (presentWord 0x300#12).cmd = encode (.crcChk 0x00#8) ∧ (presentWord 0x9FF#12).cmd = encode (.frmByte 0xFF#8) ∧
      (presentWord 0xA00#12).cmd = encode .frmAbort ∧ (busy 0).active = true ∧ idle.active = false ∧
      legal .nop (busy 5) = true ∧ legal (.frmByte 0#8) (busy 5) = true ∧ legal .crcInit idle = true ∧
      State.reset.pending = [] ∧ ({ rst := false, cmdValid := false, cmd := 0#12 } : Inputs).cmdValid = false := by
  decide

/-- FaultEntryFrame: a word that faults for each of the four causes. -/
theorem test_witness_fault_taken :
    (stateOf (acceptWord 0x400#12 idle)).map (·.fault) = some true ∧
      (stateOf (acceptWord 0x001#12 idle)).map (·.fault) = some true ∧
      (stateOf (acceptWord 0x100#12 (busy 0))).map (·.fault) = some true ∧
      (stateOf (acceptWord 0x900#12 idle)).map (·.fault) = some true := by decide

/-- FailStop, FaultLeftOnlyByReset: a stopped block with commands pending and no reset among them. -/
theorem test_witness_stopped : ∃ t,
    (facing [presentWord 0x100#12, presentWord 0x800#12] stopped).fault = true ∧
      (∀ p ∈ (facing [presentWord 0x100#12, presentWord 0x800#12] stopped).pending, p.rst = false) ∧
      resetNext (facing [presentWord 0x100#12, presentWord 0x800#12] stopped) = false ∧
      step (facing [presentWord 0x100#12, presentWord 0x800#12] stopped) = .next t :=
  ⟨_, by decide, by decide, by decide, rfl⟩

/-- LegalityTable: a legal command and one illegal on either side, each with its next state. -/
theorem test_witness_legality :
    idle.fault = false ∧ (busy 2).fault = false ∧ legal .frmStart (busy 2) = true ∧ legal .frmAbort idle = false ∧
      legal .crcInit (busy 2) = false ∧ (∃ t, exec .frmStart (busy 2) = .next t) ∧
      (∃ t, exec .frmAbort idle = .next t) ∧ ∃ t, exec .crcInit (busy 2) = .next t :=
  ⟨by decide, by decide, by decide, by decide, by decide, ⟨_, rfl⟩, ⟨_, rfl⟩, ⟨_, rfl⟩⟩

/-- A state after a good frame meets the invariants of R34. -/
theorem test_witness_invariant_idle : BlockInvariant idle := by
  constructor <;> decide

/-- So does one in the middle of the next frame. -/
theorem test_witness_invariant_busy : BlockInvariant (busy 2) := by
  constructor <;> decide

/-- StepKeepsInvariants: such a state with a command to take, and its next state. -/
theorem test_witness_invariant_step : BlockInvariant (facing [presentWord 0x9FF#12] (busy 2)) ∧
    ∃ t, step (facing [presentWord 0x9FF#12] (busy 2)) = .next t :=
  ⟨by constructor <;> decide, _, rfl⟩

/-- ReachableStatesMeetInvariants: a run from reset that answers. -/
theorem test_witness_run_from_reset : ∃ t,
    runSteps 2 (withPending [presentWord 0x800#12, presentWord 0x964#12] State.reset) = .next t := ⟨_, rfl⟩

/-- SampleWrittenOnlyByCommit, SequencingTransitions, CrcRegisterWriters: a step that commits; one that writes `crc`;
one that sets `crc_match`. -/
theorem test_witness_whole_machine_steps :
    (stateOf (step (facing [presentWord 0x9FF#12] { busy 5 with stgT := 0x1234#16 }))).map (·.rawT) =
        some 0x1234#16 ∧
      resetNext (facing [presentWord 0x9FF#12] (busy 5)) = false ∧
      (stateOf (step (facing [presentWord 0x264#12] idle))).map (fun t => decide (t.crc ≠ idle.crc)) = some true ∧
      idle.crcMatch = false ∧
      (stateOf (step (facing [presentWord 0x31C#12] idle))).map (·.crcMatch) = some true := by decide

/-- IdempotentCommands: each of the four runs; the frame command of the second part too. -/
theorem test_witness_idempotent : (∃ t, exec .nop idle = .next t) ∧ (∃ t, exec .crcInit idle = .next t) ∧
    (∃ t, exec .frmStart idle = .next t) ∧ ∃ t, exec (.crcChk 0x1C#8) idle = .next t :=
  ⟨⟨_, rfl⟩, ⟨_, rfl⟩, ⟨_, rfl⟩, ⟨_, rfl⟩⟩

/-- FrmStartForgetsTheRest: two states that meet R34 and differ in `crc`, `active` and the flags, with one sample. -/
theorem test_witness_two_states : BlockInvariant idle ∧ BlockInvariant (busy 2) ∧ idle.fault = false ∧
    (busy 2).fault = false ∧ idle.rawT = (busy 2).rawT ∧ idle.rawH = (busy 2).rawH ∧
    idle.sampleValid = (busy 2).sampleValid ∧ idle.draw = (busy 2).draw ∧ idle.pending = (busy 2).pending ∧
    idle.crc ≠ (busy 2).crc :=
  ⟨test_witness_invariant_idle, test_witness_invariant_busy, by decide, by decide, by decide, by decide, by decide,
    by decide, by decide, by decide⟩

/-- StagingUnobservedBeforeCommit: both sides of its condition on the offset, each with the steps it speaks of. -/
theorem test_witness_staging :
    (facing [presentWord 0x9AA#12] (busy 4)).idx.val < 5 ∧ (facing [presentWord 0x200#12] idle).active = false ∧
      (∃ t, step (facing [presentWord 0x9AA#12] (busy 4)) = .next t) ∧
      ∃ u, step { facing [presentWord 0x9AA#12] (busy 4) with stgT := 0xFFFF#16, stgH := 0x0001#16 } = .next u :=
  ⟨by decide, by decide, ⟨_, rfl⟩, ⟨_, rfl⟩⟩

/-- StatusReportsFrame: a state that is not stopped, a frame cut short, and a state for each row of the table. -/
theorem test_witness_status_rows :
    idle.fault = false ∧ ([0x64#8, 0x8B#8, 0#8, 0#8, 0#8] : List Byte).length < 6 ∧ BlockInvariant stopped ∧
      stopped.fault = true ∧ BlockInvariant (busy 2) ∧ BlockInvariant State.reset ∧ State.reset.done = false ∧
      BlockInvariant idle ∧ idle.ok = true ∧ BlockInvariant (abortFrame (busy 2)) ∧
      (abortFrame (busy 2)).done = true ∧ (abortFrame (busy 2)).ok = false :=
  ⟨by decide, by decide, by constructor <;> decide, by decide, test_witness_invariant_busy,
    by constructor <;> first | decide | exact fun _ => ⟨rfl, rfl, rfl⟩, by decide, test_witness_invariant_idle,
    by decide, by constructor <;> decide, by decide, by decide⟩

/-- The stopped block of vector S7 shows a frozen OK (0xC6), and readSample is no success of it (R95, R128). -/
theorem test_stopped_is_no_success :
    statusByte stopped = 0xC6#8 ∧
      readSampleResult .bytewise 5 [.delivered 0 0 0x81 0 0 0x81] (statusByte stopped) = .noCounterpart ∧
      readSampleResult .bytewise 5 [.delivered 0 0 0x81 0 0 0x81] 0x46#8 = .value true := by decide

/-- ReadSampleReturns: attempts used up; attempts left; an attempt that ends well; an error with the sixth byte, in both ways of
driving. -/
theorem test_witness_read_sample :
    attemptsMade .bytewise 2 [.writeError, .readError [1]] = [.writeError, .readError [1]] ∧
      attemptsMade .bytewise 3 [.writeError] = [.writeError] ∧
      attemptsMade .bytewise 3 [.writeError, .delivered 0 0 0 0 0 0] = [.writeError] ++ [.delivered 0 0 0 0 0 0] ∧
      attemptsMade .bytewise 3 [.readError [1, 2, 3, 4, 5, 6], .writeError] = [.readError [1, 2, 3, 4, 5, 6]] ∧
      attemptsMade .blocking 3 [.readError [1, 2, 3, 4, 5, 6], .writeError] =
        [.readError [1, 2, 3, 4, 5, 6], .writeError] ∧
      idle.fault = false ∧ idle.active = false ∧ (0xC6#8).getLsbD 7 = true := by decide

/-- CrcByteResult: a message with a NOP and a CRC.CHK between its bytes. -/
theorem test_witness_message : ∀ i ∈ [Instr.crcByte 0xBE#8, .nop, .crcChk 0x0C#8, .crcByte 0xEF#8],
    i = .nop ∨ (∃ d, i = .crcByte d) ∨ ∃ k, i = .crcChk k := by simp

/-- ContractPreventsFaults: a stream with a message, a whole frame with a NOP in it, and an aborted one; and one
stream that breaks each item. -/
theorem test_witness_contract :
    keepsContract (.between false) [.crcInit, .crcByte 1, .crcChk 2, .frmStart, .frmByte 1, .frmByte 2, .nop,
        .frmByte 3, .frmByte 4, .frmByte 5, .frmByte 6, .frmStart, .frmByte 7, .frmAbort, .crcInit] = true ∧
      keepsContract (.between false) [.crcByte 1] = false ∧
      keepsContract (.between true) [.frmStart, .crcChk 1] = false ∧
      keepsContract (.between true) [.frmStart, .frmByte 1, .frmStart] = false ∧
      keepsContract (.between true) [.frmAbort] = false ∧ idle.fault = false ∧ idle.active = false := by decide

/-- RetryBounded: attempts that fail, then one without a transport error, and one that is not made. -/
theorem test_witness_attempts :
    attemptsMade .bytewise 3 [.writeError, .delivered 0 0 0 0 0 0, .writeError] =
        [.writeError] ++ .delivered 0 0 0 0 0 0 :: [] ∧
      transportOk (.delivered 0 0 0 0 0 0) = true ∧
      attemptCommands .bytewise (.delivered 0 0 0 0 0 0) = frmRx 0 0 0 0 0 0 := by decide

/-- DecodeFollowsOpcodeMap, DecodeEncodeInverse: a word that decodes and one that does not. -/
theorem test_witness_decoding :
    decode 0x3A2#12 = .ok (.crcChk 0xA2#8) ∧ decode 0x3A2#12 ≠ .ok .nop ∧ decode 0xC00#12 = .error .opcode := by decide

end Sys2Proof.Tests
end

/-! Decoding and encoding are inverse, so a step can be read off the command that was presented
(30_encoding.md R58, R65), and how one command word is placed for the next step. -/

namespace Sys2Proof

@[simp] theorem decode_encode (i : Instr) : decode (encode i) = .ok i := by
  cases i <;> simp [encode, decode, zForm]

/-- A word that decodes is the word of its command: the operand field of a Z-format row has no second value (R60). -/
theorem encode_of_decode {w : Cmd} {i : Instr} (h : decode w = .ok i) : encode i = w := by
  have zero_operand {op : BitVec 4} {j : Instr} (hop : opField w = op) (hz : zForm j (operandField w) = .ok i)
      (hj : encode j = assemble op 0x00#8) : encode i = w := by
    obtain ⟨hd, rfl⟩ := zForm_ok.mp hz
    rw [hj, ← hop, ← hd, assemble_fields]
  unfold decode at h
  split at h
  next hop => exact zero_operand hop h rfl
  next hop => exact zero_operand hop h rfl
  next hop => cases h; rw [encode, ← hop, assemble_fields]
  next hop => cases h; rw [encode, ← hop, assemble_fields]
  next hop => exact zero_operand hop h rfl
  next hop => cases h; rw [encode, ← hop, assemble_fields]
  next hop => exact zero_operand hop h rfl
  next => cases h

/-- Every command word fits a 16-bit table word. -/
@[simp] theorem cmdOfTableWord_toNat (w : Cmd) : cmdOfTableWord 16 w.toNat = some w := by
  have hw : w.toNat < 2 ^ 12 := w.isLt
  have hmod : w.toNat % 2 ^ 16 = w.toNat := Nat.mod_eq_of_lt (by omega)
  rw [cmdOfTableWord, hmod, if_pos hw, BitVec.ofNat_toNat, BitVec.setWidth_eq]

end Sys2Proof

/-! What the operations of the block do beyond Laws/Ops.lean: the cases of a frame byte, the checks as
propositions, a change of the staging registers, and everything one step can make of the block. -/

namespace Sys2Proof.Machine

/-! ### Flags and words -/

/-- The commit happens exactly with a valid temperature group and a sixth byte equal to `crc` (R88). -/
theorem framePassed_checksumDiffers {e : Bool} {c d : Byte} :
    framePassed e (checksumDiffers c d) = true ↔ e = false ∧ c = d := by
  simp [framePassed, checksumDiffers]

theorem crcMatches_iff {c d : Byte} : crcMatches c d = true ↔ c = d := by
  simp [crcMatches]

/-- A protocol fault records one of the codes 1 to 4 (R116). -/
theorem faultCodeBits_range {c : FaultCode} (h : c ≠ .noFault) :
    1 ≤ (faultCodeBits c).toNat ∧ (faultCodeBits c).toNat ≤ 4 := by
  cases c with
  | noFault => exact absurd rfl h
  | illegalOpcode => decide
  | illegalOperand => decide
  | crcBusy => decide
  | frmIdle => decide

theorem illegalCode_ne_noFault (e : Illegal) : illegalCode e ≠ .noFault := by
  cases e <;> simp [illegalCode]

theorem stateFault_ne_noFault {i : Instr} {s : State} {c : FaultCode} (h : stateFault i s = some c) :
    c ≠ .noFault := by
  rcases stateFault_cases h with ⟨rfl, -⟩ | ⟨rfl, -⟩ <;> simp

theorem rawWord_toNat (msb lsb : Byte) : (rawWord msb lsb).toNat = 256 * msb.toNat + lsb.toNat := by
  have hl : lsb.toNat < 2 ^ 8 := lsb.isLt
  rw [rawWord, BitVec.toNat_append, ← Nat.shiftLeft_add_eq_or_of_lt hl, Nat.shiftLeft_eq]
  omega

theorem setHigh_eq_rawWord (w : Raw) (d : Byte) : setHigh w d = rawWord d (w.extractLsb' 0 8) := rfl

theorem setLow_eq_rawWord (w : Raw) (d : Byte) : setLow w d = rawWord (w.extractLsb' 8 8) d := rfl

/-! ### One frame byte -/

theorem offset_cases (k : Fin 6) : k = 0 ∨ k = 1 ∨ k = 2 ∨ k = 3 ∨ k = 4 ∨ k = 5 := by
  omega

/-- A frame byte ends the frame at offset 5. Below it, it moves to the next offset, writes `err_t` at offset 2 only,
does not write `crc` there, and writes nothing else but staging (R87, R88). -/
theorem takeFrameByte_cases (d : Byte) (s : State) :
    (s.idx = 5 ∧ takeFrameByte d s = endFrame d s) ∨
      (s.idx.val < 5 ∧ ∃ (x y : Raw) (c : Byte) (e : Bool) (k : Fin 6),
        takeFrameByte d s = { s with stgT := x, stgH := y, crc := c, errT := e, idx := k } ∧
          k.val = s.idx.val + 1 ∧ (s.idx ≠ 2 → e = s.errT) ∧ (s.idx = 2 → c = s.crc)) := by
  rcases offset_cases s.idx with h | h | h | h | h | h
  · exact .inr ⟨by simp [h], _, _, _, _, _, takeFrameByte_temperature_msb s d h, by simp [h], by simp, by simp [h]⟩
  · exact .inr ⟨by simp [h], _, _, _, _, _, takeFrameByte_temperature_lsb s d h, by simp [h], by simp, by simp [h]⟩
  · exact .inr ⟨by simp [h], _, _, _, _, _, takeFrameByte_temperature_crc s d h, by simp [h], by simp [h], by simp⟩
  · exact .inr ⟨by simp [h], _, _, _, _, _, takeFrameByte_humidity_msb s d h, by simp [h], by simp, by simp [h]⟩
  · exact .inr ⟨by simp [h], _, _, _, _, _, takeFrameByte_humidity_lsb s d h, by simp [h], by simp, by simp [h]⟩
  · exact .inl ⟨h, takeFrameByte_humidity_crc s d h⟩

/-! ### One step -/

/-- What a step can make of the state `s` from which the host's action has been taken. The action is a reset or not,
and `word` is the command word it presents, if any. -/
inductive StepEffect (resets : Bool) (word : Option Cmd) (s : State) : State → Prop where
  /-- Nothing is presented, or the block is stopped (R102, R119). -/
  | held : StepEffect resets word s s
  /-- Reset is asserted (R101). -/
  | reset (hr : resets = true) : StepEffect resets word s (resetBlock s)
  /-- The word takes a protocol fault (R117, R118). -/
  | faulted {w : Cmd} {c : FaultCode} (hw : word = some w) (hc : c ≠ .noFault) :
      StepEffect resets word s (raiseFault c w s)
  /-- The word is that of a command which passes all checks (R121). -/
  | ran {i : Instr} (hw : word = some (encode i)) (hf : s.fault = false) (hn : stateFault i s = none) :
      StepEffect resets word s (effectOf i s)

/-- Everything one step can do, by its effect on the block. -/
theorem step_effect {s t : State} (h : step s = .next t) :
    ∃ l, StepEffect (resetNext s) (nextWord s) (withPending l s) t := by
  rcases step_cases h with ⟨hp, rfl⟩ | ⟨p, rest, hp, hcase⟩
  · exact ⟨t.pending, .held⟩
  refine ⟨rest, ?_⟩
  rcases hcase with ⟨hr, rfl⟩ | ⟨-, -, rfl⟩ | ⟨hr, hv, ha⟩
  · exact .reset (by simp [resetNext, hp, hr])
  · exact .held
  · have hw : nextWord s = some p.cmd := by simp [nextWord, hp, hr, hv]
    rcases acceptWord_cases ha with ⟨-, rfl⟩ | ⟨e, -, -, rfl⟩ | ⟨i, c, -, hd, hc, rfl⟩ | ⟨i, hf, hd, hn, rfl⟩
    · exact .held
    · exact .faulted hw (illegalCode_ne_noFault e)
    · exact .faulted (by rw [hw, encode_of_decode hd]) (stateFault_ne_noFault hc)
    · exact .ran (by rw [hw, encode_of_decode hd]) hf hn

theorem runSteps_succ {k : Nat} {s t : State} (h : runSteps (k + 1) s = .next t) :
    ∃ u, step s = .next u ∧ runSteps k u = .next t := by
  rw [runSteps] at h
  cases hs : step s with
  | next u => rw [hs] at h; exact ⟨u, rfl, h⟩
  | fault r => rw [hs] at h; cases h
  | refused r => rw [hs] at h; cases h

/-- What every step keeps, a run keeps. -/
theorem runSteps_keeps {P : State → Prop} (keeps : ∀ s t, P s → step s = .next t → P t) {k : Nat} {s t : State}
    (hs : P s) (h : runSteps k s = .next t) : P t := by
  induction k generalizing s with
  | zero => cases h; exact hs
  | succ k ih =>
    obtain ⟨u, hu, hrun⟩ := runSteps_succ h
    exact ih (keeps s u hs hu) hrun

/-! ### Staging -/

/-- The same state with other staging registers. -/
def restage (x y : Raw) (s : State) : State := { s with stgT := x, stgH := y }

/-- The staging registers are on no port (R25, R31). -/
@[simp] theorem outputs_restage (x y : Raw) (s : State) : outputs (restage x y s) = outputs s := rfl

/-- Below offset 5 a frame byte moves nothing from staging to another element. -/
theorem takeFrameByte_restage (d : Byte) (x y : Raw) {s : State} (hk : s.idx.val < 5) :
    ∃ x' y', takeFrameByte d (restage x y s) = restage x' y' (takeFrameByte d s) := by
  rcases offset_cases s.idx with h | h | h | h | h | h
  · exact ⟨setHigh x d, y, by simp only [takeFrameByte, restage, h]⟩
  · exact ⟨setLow x d, y, by simp only [takeFrameByte, restage, h]⟩
  · exact ⟨x, y, by simp only [takeFrameByte, restage, h]⟩
  · exact ⟨x, setHigh y d, by simp only [takeFrameByte, restage, h]⟩
  · exact ⟨x, setLow y d, by simp only [takeFrameByte, restage, h]⟩
  · simp [h] at hk

/-- Where no commit can occur, a command that runs takes two states that differ only in staging to two such states. -/
theorem effectOf_restage {i : Instr} (x y : Raw) {s : State} (hk : s.active = false ∨ s.idx.val < 5)
    (hn : stateFault i s = none) : ∃ x' y', effectOf i (restage x y s) = restage x' y' (effectOf i s) := by
  cases i with
  | nop => exact ⟨x, y, rfl⟩
  | crcInit => exact ⟨x, y, rfl⟩
  | crcByte d => exact ⟨x, y, rfl⟩
  | crcChk d => exact ⟨x, y, rfl⟩
  | frmStart => exact ⟨0x0000#16, 0x0000#16, rfl⟩
  | frmByte d =>
    have ha : s.active = true := frameBlocked_eq_none.mp hn
    exact takeFrameByte_restage d x y (hk.resolve_left (by simp [ha]))
  | frmAbort => exact ⟨x, y, rfl⟩

/-- The state check does not look at staging (R116). -/
theorem stateFault_restage (i : Instr) (x y : Raw) (s : State) : stateFault i (restage x y s) = stateFault i s := by
  cases i <;> rfl

theorem exec_restage (i : Instr) (x y : Raw) {s : State} (hk : s.active = false ∨ s.idx.val < 5) :
    ∃ t x' y', exec i s = .next t ∧ exec i (restage x y s) = .next (restage x' y' t) := by
  rw [exec_eq_perform, exec_eq_perform, stateFault_restage]
  cases hf : s.fault with
  | true => exact ⟨s, x, y, perform_stopped hf, perform_stopped hf⟩
  | false =>
    cases hc : stateFault i s with
    | some c => exact ⟨raiseFault c (encode i) s, x, y, perform_blocked hf, perform_blocked hf⟩
    | none =>
      obtain ⟨x', y', he⟩ := effectOf_restage x y hk hc
      exact ⟨effectOf i s, x', y', perform_runs hf, by rw [← he]; exact perform_runs hf⟩

theorem acceptWord_restage (w : Cmd) (x y : Raw) {s : State} (hk : s.active = false ∨ s.idx.val < 5) :
    ∃ t x' y', acceptWord w s = .next t ∧ acceptWord w (restage x y s) = .next (restage x' y' t) := by
  cases hw : decode w with
  | ok i => rw [acceptWord_command hw, acceptWord_command hw]; exact exec_restage i x y hk
  | error e =>
    cases hf : s.fault with
    | true => exact ⟨s, x, y, acceptWord_stopped w hf, acceptWord_stopped w hf⟩
    | false => exact ⟨raiseFault (illegalCode e) w s, x, y, acceptWord_illegal hf hw, acceptWord_illegal hf hw⟩

/-- Where no commit can occur, one step takes two states that differ only in staging to two such states. -/
theorem step_restage (x y : Raw) {s : State} (hk : s.active = false ∨ s.idx.val < 5) :
    ∃ t x' y', step s = .next t ∧ step (restage x y s) = .next (restage x' y' t) := by
  cases hp : s.pending with
  | nil => exact ⟨s, x, y, step_idle hp, step_idle hp⟩
  | cons p rest =>
    rw [step_inputs hp, step_inputs (s := restage x y s) hp]
    cases hr : p.rst with
    | true =>
      exact ⟨resetBlock (withPending rest s), 0x0000#16, 0x0000#16, acceptInputs_reset _ hr, acceptInputs_reset _ hr⟩
    | false =>
      cases hv : p.cmdValid with
      | false => exact ⟨withPending rest s, x, y, acceptInputs_idle _ hr hv, acceptInputs_idle _ hr hv⟩
      | true =>
        rw [acceptInputs_word _ hr hv, acceptInputs_word _ hr hv]
        exact acceptWord_restage p.cmd x y (s := withPending rest s) hk

end Sys2Proof.Machine

/-! The eleven invariants of 10_state.md R34 under each operation of the block. -/

namespace Sys2Proof.Machine

/-- A block at its reset values, at any draw of the unspecified words (R136). -/
theorem blockInvariant_reset (n : Nat) (l : List Inputs) : BlockInvariant
    { State.reset with rawT := Config.rawTReset n, rawH := Config.rawHReset n, draw := n, pending := l } := by
  constructor <;> simp [State.reset]

section

variable {s : State}

theorem blockInvariant_withPending (h : BlockInvariant s) (l : List Inputs) : BlockInvariant (withPending l s) :=
  { h with }

/-- Fault entry touches item 9 alone. -/
theorem blockInvariant_raiseFault (h : BlockInvariant s) {c : FaultCode} (hc : c ≠ .noFault) (w : Cmd) :
    BlockInvariant (raiseFault c w s) :=
  { h with
    no_fault := by simp
    fault_code := fun _ => faultCodeBits_range hc }

/-- Outside a frame no item constrains `crc` and `crc_match`. -/
theorem blockInvariant_crcWrite (h : BlockInvariant s) (ha : s.active = false) (c : Byte) (m : Bool) :
    BlockInvariant { s with crc := c, crcMatch := m } :=
  { h with busy_flags := by simp [ha] }

theorem blockInvariant_startFrame (h : BlockInvariant s) : BlockInvariant (startFrame s) :=
  { h with
    idx_le := by simp
    idle_idx := by simp
    busy_flags := by simp
    busy_errT := by simp
    ok_sample := by simp
    done_ok := by simp
    abort_flags := by simp
    fresh_flags := by simp
    no_sample := fun hv =>
      have ⟨hT, hH, _⟩ := h.no_sample hv
      ⟨hT, hH, rfl⟩
    fresh_staging := by simp }

/-- In a frame no item constrains `crc` and staging; `err_t` must wait for offset 3. -/
theorem blockInvariant_frameWrite (h : BlockInvariant s) (ha : s.active = true) {x y : Raw} {c : Byte} {e : Bool}
    {k : Fin 6} (he : k.val ≤ 2 → e = false) :
    BlockInvariant { s with stgT := x, stgH := y, crc := c, errT := e, idx := k } := by
  obtain ⟨hdone, hok, -⟩ := h.busy_flags ha
  exact
    { h with
      idx_le := by simp only; omega
      idle_idx := by simp [ha]
      busy_errT := fun _ hk => he hk
      ok_sample := by simp [hok]
      done_ok := by simp [hdone]
      fresh_flags := by simp [ha]
      fresh_staging := by simp [ha] }

/-- The end of a frame sets the flags from the two checks, and `ok` comes with the staged words as the sample. -/
theorem blockInvariant_endFrame (h : BlockInvariant s) (ha : s.active = true) (d : Byte) :
    BlockInvariant (endFrame d s) := by
  obtain ⟨-, -, habort, -⟩ := h.busy_flags ha
  constructor
  case idx_le => simp
  case idle_idx => simp
  case busy_flags => simp
  case busy_errT => simp
  case ok_sample =>
    intro hok
    rw [endFrame_ok] at hok
    obtain ⟨herr, hcrc⟩ := framePassed_checksumDiffers.mp hok
    have hsame : checksumDiffers s.crc d = false := by simp [checksumDiffers, hcrc]
    simp [framePassed, herr, hsame, habort]
  case done_ok => simp [framePassed]
  case abort_flags => simp [habort]
  case fresh_flags => simp
  case no_fault => simpa using h.no_fault
  case fault_code => simpa using h.fault_code
  case no_sample =>
    intro hv
    rw [endFrame_sampleValid, Bool.or_eq_false_iff] at hv
    obtain ⟨hpass, hvalid⟩ := hv
    obtain ⟨hT, hH, -⟩ := h.no_sample hvalid
    simp [hpass, hT, hH]
  case fresh_staging => simp

theorem blockInvariant_takeFrameByte (h : BlockInvariant s) (ha : s.active = true) (d : Byte) :
    BlockInvariant (takeFrameByte d s) := by
  rcases takeFrameByte_cases d s with ⟨-, hend⟩ | ⟨-, x, y, c, e, k, htake, hk, he, -⟩
  · rw [hend]; exact blockInvariant_endFrame h ha d
  · rw [htake]
    refine blockInvariant_frameWrite h ha fun hk2 => ?_
    rw [he (by omega)]
    exact h.busy_errT ha (by omega)

theorem blockInvariant_abortFrame (h : BlockInvariant s) (ha : s.active = true) : BlockInvariant (abortFrame s) := by
  obtain ⟨-, -, -, herrH, -⟩ := h.busy_flags ha
  exact
    { h with
      idx_le := by simp
      idle_idx := by simp
      busy_flags := by simp
      busy_errT := by simp
      ok_sample := by simp
      done_ok := by simp
      abort_flags := by simp [herrH]
      fresh_flags := by simp
      no_sample := fun hv =>
        have ⟨hT, hH, _⟩ := h.no_sample hv
        ⟨hT, hH, rfl⟩
      fresh_staging := by simp }

/-- A command that passes its state check keeps the invariants. -/
theorem blockInvariant_effectOf (h : BlockInvariant s) {i : Instr} (hn : stateFault i s = none) :
    BlockInvariant (effectOf i s) := by
  cases i with
  | nop => exact h
  | crcInit => exact blockInvariant_crcWrite h (crcBlocked_eq_none.mp hn) _ _
  | crcByte d => exact blockInvariant_crcWrite h (crcBlocked_eq_none.mp hn) _ _
  | crcChk d => exact blockInvariant_crcWrite h (crcBlocked_eq_none.mp hn) _ _
  | frmStart => exact blockInvariant_startFrame h
  | frmByte d => exact blockInvariant_takeFrameByte h (frameBlocked_eq_none.mp hn) d
  | frmAbort => exact blockInvariant_abortFrame h (frameBlocked_eq_none.mp hn)

end

/-- Settles O39, by the effect of the step. -/
theorem stepKeepsInvariants : Obligations.StepKeepsInvariants := by
  unfold Obligations.StepKeepsInvariants
  intro s t hs hstep
  obtain ⟨l, heffect⟩ := step_effect hstep
  have hl : BlockInvariant (withPending l s) := blockInvariant_withPending hs l
  cases heffect with
  | held => exact hl
  | reset hr => exact blockInvariant_reset _ _
  | faulted hw hc => exact blockInvariant_raiseFault hl hc _
  | ran hw hf hn => exact blockInvariant_effectOf hl hn

/-- Settles O38: the first draw, with no host action pending. -/
theorem resetMeetsInvariants : Obligations.ResetMeetsInvariants :=
  blockInvariant_reset 0 []

/-- Settles O40, by induction on the number of steps. -/
theorem reachableStatesMeetInvariants : Obligations.ReachableStatesMeetInvariants := by
  unfold Obligations.ReachableStatesMeetInvariants
  intro inputs k t hrun
  exact runSteps_keeps stepKeepsInvariants (blockInvariant_withPending resetMeetsInvariants inputs) hrun

end Sys2Proof.Machine

/-! Which commands write the sample, the sequencing elements and the CRC elements (10_state.md R21 to R27),
and that staging is not seen before a commit (R25). -/

namespace Sys2Proof.Machine

/-- Below offset 5 the sample stays; at offset 5 it stays or is committed (R88, R91). -/
theorem takeFrameByte_sample (d : Byte) (s : State) :
    ((takeFrameByte d s).rawT = s.rawT ∧ (takeFrameByte d s).rawH = s.rawH ∧
        (takeFrameByte d s).sampleValid = s.sampleValid) ∨
      (s.idx = 5 ∧ s.errT = false ∧ s.crc = d ∧ (takeFrameByte d s).rawT = s.stgT ∧
        (takeFrameByte d s).rawH = s.stgH ∧ (takeFrameByte d s).sampleValid = true ∧ (takeFrameByte d s).ok = true) := by
  rcases takeFrameByte_cases d s with ⟨hk, hend⟩ | ⟨-, x, y, c, e, k, htake, -⟩
  · rw [hend]
    cases hpass : framePassed s.errT (checksumDiffers s.crc d) with
    | true =>
      obtain ⟨herr, hcrc⟩ := framePassed_checksumDiffers.mp hpass
      exact .inr ⟨hk, herr, hcrc, by simp [hpass]⟩
    | false => exact .inl (by simp [hpass])
  · rw [htake]; exact .inl ⟨rfl, rfl, rfl⟩

/-- Settles O41: of the effects of a step only that of a frame byte can write the sample. -/
theorem sampleWrittenOnlyByCommit : Obligations.SampleWrittenOnlyByCommit := by
  unfold Obligations.SampleWrittenOnlyByCommit
  intro s t hstep hreset
  obtain ⟨l, heffect⟩ := step_effect hstep
  cases heffect with
  | held => exact .inl ⟨rfl, rfl, rfl⟩
  | reset hr => simp [hreset] at hr
  | faulted hw hc => exact .inl ⟨rfl, rfl, rfl⟩
  | @ran i hw hf hn =>
    cases i with
    | frmByte d =>
      rcases takeFrameByte_sample d (withPending l s) with hkept | ⟨hk, herr, rfl, hcommit⟩
      · exact .inl hkept
      · exact .inr ⟨hf, frameBlocked_eq_none.mp hn, hk, herr, hw, hcommit⟩
    | _ => exact .inl ⟨rfl, rfl, rfl⟩

/-- A frame byte ends the frame at offset 5 and moves to the next offset below it (R24). -/
theorem takeFrameByte_sequencing (d : Byte) {s : State} (ha : s.active = true) :
    (s.idx = 5 ∧ (takeFrameByte d s).active = false ∧ (takeFrameByte d s).idx = 0) ∨
      (s.idx.val < 5 ∧ (takeFrameByte d s).active = true ∧ (takeFrameByte d s).idx.val = s.idx.val + 1) := by
  rcases takeFrameByte_cases d s with ⟨hk, hend⟩ | ⟨hlt, x, y, c, e, k, htake, hk, -⟩
  · exact .inl ⟨hk, by simp [hend], by simp [hend]⟩
  · exact .inr ⟨hlt, by simp [htake, ha], by simp [htake, hk]⟩

/-- Settles O42, by the effect of the step and, where a command ran, by the command. -/
theorem sequencingTransitions : Obligations.SequencingTransitions := by
  unfold Obligations.SequencingTransitions
  intro s t hstep hreset
  obtain ⟨l, heffect⟩ := step_effect hstep
  cases heffect with
  | held => exact .inl ⟨rfl, rfl⟩
  | reset hr => simp [hreset] at hr
  | faulted hw hc => exact .inl ⟨rfl, rfl⟩
  | @ran i hw hf hn =>
    cases i with
    | frmStart => exact .inr (.inl ⟨hw, rfl, rfl⟩)
    | frmByte d =>
      have ha : s.active = true := frameBlocked_eq_none.mp hn
      exact .inr (.inr (.inl ⟨d, hw, ha, takeFrameByte_sequencing (s := withPending l s) d ha⟩))
    | frmAbort => exact .inr (.inr (.inr ⟨hw, frameBlocked_eq_none.mp hn, rfl, rfl⟩))
    | _ => exact .inl ⟨rfl, rfl⟩

/-- A frame byte leaves `crc` at the two offsets that carry a checksum (R87, R88). -/
theorem takeFrameByte_crc_changes {d : Byte} {s : State} (h : (takeFrameByte d s).crc ≠ s.crc) : s.idx ∈ [0, 1, 3, 4] := by
  rcases takeFrameByte_cases d s with ⟨-, hend⟩ | ⟨hlt, x, y, c, e, k, htake, -, -, hcrc⟩
  · simp [hend] at h
  · have h2 : s.idx ≠ 2 := fun h2 => h (by rw [htake]; exact hcrc h2)
    simp only [List.mem_cons, List.not_mem_nil]
    omega

/-- Settles O43, by the effect of the step and, where a command ran, by the command. -/
theorem crcRegisterWriters : Obligations.CrcRegisterWriters := by
  unfold Obligations.CrcRegisterWriters
  intro s t hstep hreset
  obtain ⟨l, heffect⟩ := step_effect hstep
  cases heffect with
  | held => exact ⟨fun h => absurd rfl h, fun hclear hset => nomatch hclear.symm.trans hset⟩
  | reset hr => simp [hreset] at hr
  | faulted hw hc => exact ⟨fun h => absurd rfl h, fun hclear hset => nomatch hclear.symm.trans hset⟩
  | @ran i hw hf hn =>
    cases i with
    | nop | frmAbort => exact ⟨fun h => absurd rfl h, fun hclear hset => nomatch hclear.symm.trans hset⟩
    | crcInit => exact ⟨fun _ => .inl hw, by simp [effectOf]⟩
    | crcByte d => exact ⟨fun _ => .inr (.inl ⟨d, hw⟩), by simp [effectOf]⟩
    | crcChk d =>
      refine ⟨fun h => absurd rfl h, fun _ hmatch => ?_⟩
      obtain rfl : s.crc = d := crcMatches_iff.mp hmatch
      exact ⟨hw, crcBlocked_eq_none.mp hn⟩
    | frmStart => exact ⟨fun _ => .inr (.inr (.inl hw)), by simp [effectOf]⟩
    | frmByte d =>
      have hkept : (takeFrameByte d (withPending l s)).crcMatch = s.crcMatch := takeFrameByte_crcMatch _ d
      refine ⟨fun h => ?_, fun hclear hset => nomatch (hkept.trans hclear).symm.trans hset⟩
      exact .inr (.inr (.inr ⟨⟨d, hw⟩, frameBlocked_eq_none.mp hn, takeFrameByte_crc_changes (s := withPending l s) h⟩))

/-- Settles O46: the step keeps the two states equal but for staging, which is on no port. -/
theorem stagingUnobservedBeforeCommit : Obligations.StagingUnobservedBeforeCommit := by
  unfold Obligations.StagingUnobservedBeforeCommit
  intro s t u x y hk ht hu
  obtain ⟨t', x', y', ht', hu'⟩ := step_restage x y hk
  obtain rfl : t = t' := Host.Outcome.next.inj (ht.symm.trans ht')
  obtain rfl : u = restage x' y' t := Host.Outcome.next.inj (hu.symm.trans hu')
  exact outputs_restage x' y' t

end Sys2Proof.Machine

/-! One presented command, an idle host, and the ports (10_state.md R30 to R32, R42). -/

namespace Sys2Proof.Machine

theorem withFetchWord_encode (s : State) (i : Instr) :
    s.withFetchWord 16 (encode i).toNat = withPending (presentInstr i :: s.pending) s := by
  simp [State.withFetchWord, presentTableWord, presentInstr]

/-- The step that takes a presented command runs it. -/
theorem step_presentInstr (i : Instr) (rest : List Inputs) (s : State) :
    step (withPending (presentInstr i :: rest) s) = exec i (withPending rest s) := by
  rw [step_inputs (withPending_pending s _), acceptInputs_word _ rfl rfl]
  exact acceptWord_command (decode_encode i)

/-- Settles O26: the presented action is taken, and the host's other actions are left as they were. -/
theorem fetchWordRunsCommand : Obligations.FetchWordRunsCommand := by
  unfold Obligations.FetchWordRunsCommand
  intro s i
  rw [withFetchWord_encode, step_presentInstr]
  rfl

/-- Settles O28, by the idle cases of a step. -/
theorem idleHostHoldsState : Obligations.IdleHostHoldsState := by
  unfold Obligations.IdleHostHoldsState
  refine ⟨fun s hp => step_idle hp, fun s p rest hp hr hv => ?_⟩
  rw [step_inputs hp, acceptInputs_idle _ hr hv]
  rfl

/-- The status byte takes its flags one below the other, FAULT first (R30). -/
theorem statusByte_eq_concat (s : State) : statusByte s =
    (((((((BitVec.ofBool s.fault).concat s.sampleValid).concat s.errAbort).concat s.errH).concat s.errT).concat
      s.ok).concat s.done).concat s.active := rfl

/-- Settles O32, bit by bit of the concatenation. -/
theorem statusByteBits : Obligations.StatusByteBits := by
  unfold Obligations.StatusByteBits
  intro s
  simp [outputs, statusByte_eq_concat, BitVec.getElem_concat]

/-- Settles O33: the ports are the elements; `idx` fits its three bits. -/
theorem portsShowState : Obligations.PortsShowState := by
  unfold Obligations.PortsShowState
  refine ⟨fun s => ⟨rfl, ?_, ?_, rfl, rfl, rfl, rfl⟩, ⟨rfl, rfl, rfl, rfl, rfl⟩, fun s x y => outputs_restage x y s⟩
  · cases hm : s.crcMatch <;> simp [outputs, hm]
  · have hk : s.idx.val < 2 ^ 3 := by omega
    exact Nat.mod_eq_of_lt hk

/-- Settles O55: writing a half is putting the byte beside the other half. -/
theorem bigEndianStaging : Obligations.BigEndianStaging := by
  unfold Obligations.BigEndianStaging
  refine ⟨fun w d => ⟨?_, ?_⟩, rawWord_toNat⟩
  · rw [setHigh_eq_rawWord, rawWord_toNat]
    simp
  · have hw : w.toNat < 2 ^ 16 := w.isLt
    rw [setLow_eq_rawWord, rawWord_toNat, BitVec.extractLsb'_toNat, Nat.shiftRight_eq_div_pow]
    omega

end Sys2Proof.Machine

/-! Repeating a command (20_memory.md R46): when the second execution leaves the state of the first. -/

namespace Sys2Proof.Machine

/-- A command that passes all checks has its own effect (R121). -/
theorem exec_runs {i : Instr} {s : State} (hf : s.fault = false) (hn : stateFault i s = none) :
    exec i s = .next (effectOf i s) := by
  rw [exec_eq_perform, hn, perform_runs hf]

/-- No command's own effect touches `fault` (R117, R120). -/
@[simp] theorem effectOf_fault (i : Instr) (s : State) : (effectOf i s).fault = s.fault := by
  cases i with
  | frmByte d => exact takeFrameByte_fault s d
  | _ => rfl

/-- A command is idempotent when its effect is and the effect does not make the command illegal: a fault on the first
execution stops the block, so that the second does nothing (R119). -/
theorem exec_repeat {i : Instr} {s t : State} (hlegal : stateFault i (effectOf i s) = stateFault i s)
    (heffect : effectOf i (effectOf i s) = effectOf i s) (h : exec i s = .next t) : exec i t = .next t := by
  rcases exec_cases h with ⟨hf, rfl⟩ | ⟨c, -, -, rfl⟩ | ⟨hf, hn, rfl⟩
  · exact exec_stopped i hf
  · exact exec_stopped i (raiseFault_fault s c (encode i))
  · have hrun : exec i (effectOf i s) = .next (effectOf i (effectOf i s)) :=
      exec_runs ((effectOf_fault i s).trans hf) (hlegal.trans hn)
    rw [hrun, heffect]

/-- Every frame byte moves the offset (R24). -/
theorem takeFrameByte_idx_ne (d : Byte) (s : State) : (takeFrameByte d s).idx ≠ s.idx := by
  rcases takeFrameByte_cases d s with ⟨h5, hend⟩ | ⟨-, x, y, c, e, k, htake, hk, -⟩
  · simp [hend, h5]
  · have hmoves : k ≠ s.idx := by omega
    rw [htake]
    exact hmoves

/-- FRM.BYTE changes every block that is not stopped: by its fault outside a frame, by the offset in one. -/
theorem exec_frmByte_ne (d : Byte) {s : State} (hf : s.fault = false) : exec (.frmByte d) s ≠ .next s := by
  intro h
  rcases exec_cases h with ⟨hstopped, -⟩ | ⟨c, -, -, hs⟩ | ⟨-, -, hs⟩
  · exact nomatch hf.symm.trans hstopped
  · exact nomatch hf.symm.trans (congrArg State.fault hs)
  · exact takeFrameByte_idx_ne d s (congrArg State.idx hs).symm

/-- CRC.BYTE changes a running block outside a frame when its byte changes the running value (R76). -/
theorem exec_crcByte_ne {d : Byte} {s : State} (hf : s.fault = false) (ha : s.active = false)
    (hcrc : crc8Byte s.crc d ≠ s.crc) : exec (.crcByte d) s ≠ .next s := by
  have hlegal : stateFault (.crcByte d) s = none := crcBlocked_idle ha
  rw [exec_runs hf hlegal]
  exact fun h => hcrc (congrArg State.crc (Host.Outcome.next.inj h))

/-- Settles O44. The two bytes are shown after a reset: CRC.BYTE 0xBE takes `crc` on from 0x0C, and FRM.BYTE 0x64,
the first byte of a frame, is the second byte when it is repeated. -/
theorem idempotentCommands : Obligations.IdempotentCommands := by
  unfold Obligations.IdempotentCommands
  refine ⟨fun i s t hi h => ?_, ?crcByte, ?frmByte⟩
  · rcases hi with rfl | rfl | rfl | ⟨d, rfl⟩
    · exact exec_repeat rfl rfl h
    · exact exec_repeat rfl rfl h
    · exact exec_repeat rfl rfl h
    · exact exec_repeat rfl rfl h
  case crcByte =>
    have hcrc : (feedMessage 0xBE#8 State.reset).crc = 0x0C#8 := by decide
    have hmoves : crc8Byte 0x0C#8 0xBE#8 ≠ 0x0C#8 := by decide
    exact ⟨0xBE#8, State.reset, feedMessage 0xBE#8 State.reset, rfl, exec_runs rfl rfl,
      exec_crcByte_ne rfl rfl (by rw [hcrc]; exact hmoves)⟩
  case frmByte =>
    exact ⟨0x64#8, startFrame State.reset, takeFrameByte 0x64#8 (startFrame State.reset), rfl, exec_runs rfl rfl,
      exec_frmByte_ne 0x64#8 (takeFrameByte_fault _ _)⟩

end Sys2Proof.Machine

/-! What each word decodes to, by its two fields, and how many words there are of each kind (30_encoding.md R58 to
R61, R65). -/

namespace Sys2Proof

/-- Settles O1, by the two round trips; a table word is the command word itself. -/
theorem decodeEncodeInverse : Obligations.DecodeEncodeInverse := by
  unfold Obligations.DecodeEncodeInverse
  refine ⟨decode_encode, fun w i => encode_of_decode, fun i => ?_⟩
  simp [decodeTableWord, Except.toOption]

/-- An opcode without a row in R58 is reserved (R59). -/
theorem reservedOpcode_of_not_mem : ∀ op : BitVec 4, op ∉ [0x0#4, 0x1#4, 0x2#4, 0x3#4, 0x8#4, 0x9#4, 0xA#4] →
    reservedOpcode op = true := by decide

/-- No reserved opcode is one of a Z-format command (R59, R60). -/
theorem zFormatOpcode_of_reserved : ∀ op : BitVec 4, reservedOpcode op = true → zFormatOpcode op = false := by
  decide

/-- A word fails to decode for its opcode exactly when that is reserved (R59), and for its operand field exactly when a
Z-format opcode stands before a non-zero one (R60). -/
theorem decode_error_iff {w : Cmd} {e : Illegal} : decode w = .error e ↔
    (reservedOpcode (opField w) = true ∧ .opcode = e) ∨
      (zFormatOpcode (opField w) = true ∧ operandField w ≠ 0x00#8 ∧ .operand = e) := by
  unfold decode
  split
  next hop => simp [hop, zForm_error, reservedOpcode, zFormatOpcode]
  next hop => simp [hop, zForm_error, reservedOpcode, zFormatOpcode]
  next hop => simp [hop, reservedOpcode, zFormatOpcode]
  next hop => simp [hop, reservedOpcode, zFormatOpcode]
  next hop => simp [hop, zForm_error, reservedOpcode, zFormatOpcode]
  next hop => simp [hop, reservedOpcode, zFormatOpcode]
  next hop => simp [hop, zForm_error, reservedOpcode, zFormatOpcode]
  next h0 h1 h2 h3 h8 h9 hA =>
    have hr : reservedOpcode (opField w) = true :=
      reservedOpcode_of_not_mem _ (by simpa using ⟨h0, h1, h2, h3, h8, h9, hA⟩)
    simp [hr, zFormatOpcode_of_reserved _ hr]

theorem decode_error_opcode_iff {w : Cmd} : decode w = .error .opcode ↔ reservedOpcode (opField w) = true := by
  simp [decode_error_iff]

theorem decode_error_operand_iff {w : Cmd} :
    decode w = .error .operand ↔ zFormatOpcode (opField w) = true ∧ operandField w ≠ 0x00#8 := by
  simp [decode_error_iff]

theorem wellFormedFields_encode (i : Instr) :
    wellFormedFields (opField (encode i)) (operandField (encode i)) = true := by
  cases i with
  | nop => exact Laws.EncodeWellFormed.nop.1
  | crcInit => exact Laws.EncodeWellFormed.crcInit.1
  | crcByte d => exact (Laws.EncodeWellFormed.crcByte d).1
  | crcChk d => exact (Laws.EncodeWellFormed.crcChk d).1
  | frmStart => exact Laws.EncodeWellFormed.frmStart.1
  | frmByte d => exact (Laws.EncodeWellFormed.frmByte d).1
  | frmAbort => exact Laws.EncodeWellFormed.frmAbort.1

/-- The words that decode are those with the fields of a legal encoding. -/
theorem decode_toBool (w : Cmd) : (decode w).toBool = wellFormedFields (opField w) (operandField w) := by
  cases hw : decode w with
  | ok i => rw [← encode_of_decode hw, wellFormedFields_encode]; rfl
  | error e =>
    cases e with
    | opcode => simp [wellFormedFields, decode_error_opcode_iff.mp hw, Except.toBool]
    | operand =>
      obtain ⟨hz, hd⟩ := decode_error_operand_iff.mp hw
      simp [wellFormedFields, hz, hd, Except.toBool]

/-- The numbers of the reserved words (R59). -/
theorem reservedOpcode_opField_iff (w : Cmd) :
    reservedOpcode (opField w) = true ↔ (0x400 ≤ w.toNat ∧ w.toNat ≤ 0x7FF) ∨ 0xB00 ≤ w.toNat := by
  have hw : w.toNat = 256 * (opField w).toNat + (operandField w).toNat := by
    rw [← assemble_toNat, assemble_fields]
  have hd : (operandField w).toNat < 2 ^ 8 := (operandField w).isLt
  simp only [reservedOpcode, Bool.or_eq_true, Bool.and_eq_true, decide_eq_true_eq]
  omega

/-! ### Counting words -/

/-- The word of a number is the assembly of the number's two digits in base 256. -/
theorem ofNat_eq_assemble {d : Nat} (op : Nat) (hd : d < 256) :
    BitVec.ofNat 12 (256 * op + d) = assemble (BitVec.ofNat 4 op) (BitVec.ofNat 8 d) := by
  apply BitVec.eq_of_toNat_eq
  rw [assemble_toNat]
  simp only [BitVec.toNat_ofNat]
  omega

/-- Of the 256 operand fields one is zero. -/
theorem countP_operands (f : Bool → Bool) :
    (List.range 256).countP (fun d => f (BitVec.ofNat 8 d == 0x00#8)) = (f true).toNat + 255 * (f false).toNat := by
  have nonzero : (List.range' 1 255).countP (fun d => f (BitVec.ofNat 8 d == 0x00#8)) =
      (List.range' 1 255).countP fun _ => f false := by
    refine List.countP_congr fun d hd => ?_
    have hd' : 1 ≤ d ∧ d < 1 + 255 := by simpa using hd
    have hne : BitVec.ofNat 8 d ≠ 0x00#8 := fun h => by
      have := congrArg BitVec.toNat h
      simp only [BitVec.toNat_ofNat] at this
      omega
    rw [beq_eq_false_iff_ne.mpr hne]
  rw [List.range_eq_range', List.range'_succ, List.countP_cons, nonzero]
  cases ht : f true <;> cases hf : f false <;> simp [ht]

/-- Words of a kind that depends on the opcode and on whether the operand field is zero, counted opcode by opcode. -/
theorem countP_words {p : Cmd → Bool} {q : BitVec 4 → Bool → Bool}
    (h : ∀ w, p w = q (opField w) (operandField w == 0x00#8)) (k : Nat) :
    (List.range (256 * k)).countP (fun n => p (BitVec.ofNat 12 n)) =
      ((List.range k).map fun op =>
        (q (BitVec.ofNat 4 op) true).toNat + 255 * (q (BitVec.ofNat 4 op) false).toNat).sum := by
  induction k with
  | zero => rfl
  | succ k ih =>
    have last_opcode : (List.range 256).countP (fun d => p (BitVec.ofNat 12 (256 * k + d))) =
        (List.range 256).countP fun d => q (BitVec.ofNat 4 k) (BitVec.ofNat 8 d == 0x00#8) :=
      List.countP_congr fun d hd => by
        rw [ofNat_eq_assemble k (List.mem_range.mp hd), h, opField_assemble, operandField_assemble]
    rw [Nat.mul_succ, List.range_add, List.countP_append, List.countP_map, ih, List.sum_range_succ]
    exact congrArg _ (last_opcode.trans (countP_operands _))

/-- A word's kind depends on its opcode and on whether its operand field is zero, so that the words of a kind are
counted on the 16 opcodes (R59 to R61). -/
theorem length_filter_words {p : Cmd → Bool} {q : BitVec 4 → Bool → Bool}
    (h : ∀ w, p w = q (opField w) (operandField w == 0x00#8)) :
    ((List.range 4096).filter fun n => p (BitVec.ofNat 12 n)).length =
      ((List.range 16).map fun op =>
        (q (BitVec.ofNat 4 op) true).toNat + 255 * (q (BitVec.ofNat 4 op) false).toNat).sum := by
  rw [← List.countP_eq_length_filter]
  exact countP_words h 16

/-- Every operand field of a reserved opcode makes a word that faults with code 1 (R59). -/
theorem length_reserved_words :
    ((List.range 4096).filter fun n => decode (BitVec.ofNat 12 n) = .error .opcode).length = 2304 :=
  (length_filter_words (p := fun w => decide (decode w = .error .opcode)) (q := fun op _ => reservedOpcode op)
    fun w => by simp [decode_error_opcode_iff]).trans (by decide)

/-- Every non-zero operand field of a Z-format opcode makes a word that faults with code 2 (R60). -/
theorem length_nonzero_operand_words :
    ((List.range 4096).filter fun n => decode (BitVec.ofNat 12 n) = .error .operand).length = 1020 :=
  (length_filter_words (p := fun w => decide (decode w = .error .operand)) (q := fun op z => zFormatOpcode op && !z)
    fun w => by simp [decode_error_operand_iff, beq_eq_decide]).trans (by decide)

/-- One word for each Z-format command and 256 for each B-format one (R61). -/
theorem length_legal_words :
    ((List.range 4096).filter fun n => (decode (BitVec.ofNat 12 n)).toBool).length = 4 + 3 * 256 :=
  (length_filter_words (p := fun w => (decode w).toBool)
    (q := fun op z => !reservedOpcode op && (!zFormatOpcode op || z)) decode_toBool).trans (by decide)

/-! ### The rows of the opcode map -/

theorem assemble_inj {op op' : BitVec 4} {d d' : Byte} : assemble op d = assemble op' d' ↔ op = op' ∧ d = d' := by
  refine ⟨fun h => ⟨?_, ?_⟩, fun ⟨hop, hd⟩ => by rw [hop, hd]⟩
  · simpa using congrArg opField h
  · simpa using congrArg operandField h

/-- A mask that covers the opcode compares the two fields one by one. -/
theorem selects_fields (w : Cmd) (op : BitVec 4) (d m : Byte) :
    selects w (assemble op d, assemble 0xF#4 m) = (opField w == op && operandField w &&& m == d) := by
  have hand : w &&& assemble 0xF#4 m = assemble (opField w) (operandField w &&& m) := by
    conv_lhs => rw [← assemble_fields w]
    exact BitVec.and_append.trans (congrArg (assemble · _) BitVec.and_allOnes)
  rw [Bool.eq_iff_iff]
  simp [selects, hand, assemble_inj]

/-- A Z-format row takes the one legal word of its opcode (R60). -/
theorem selects_zRow (w : Cmd) {op : BitVec 4} (hr : reservedOpcode op = false) (hz : zFormatOpcode op = true) :
    selects w (assemble op 0x00#8, assemble 0xF#4 0xFF#8) =
      (opField w == op && wellFormedFields (opField w) (operandField w)) := by
  have hmask : operandField w &&& 0xFF#8 = operandField w := BitVec.and_allOnes
  rw [selects_fields, hmask]
  cases hop : opField w == op with
  | false => rfl
  | true => simp [wellFormedFields, eq_of_beq hop, hr, hz]

/-- A B-format row takes every word of its opcode (R57). -/
theorem selects_bRow (w : Cmd) {op : BitVec 4} (hr : reservedOpcode op = false) (hz : zFormatOpcode op = false) :
    selects w (assemble op 0x00#8, assemble 0xF#4 0x00#8) =
      (opField w == op && wellFormedFields (opField w) (operandField w)) := by
  rw [selects_fields]
  cases hop : opField w == op with
  | false => rfl
  | true => simp [wellFormedFields, eq_of_beq hop, hr, hz]

/-- A word selects the row of a command when it has its opcode and is a legal encoding (R58). -/
theorem selects_rowOf (w : Cmd) (i : Instr) : selects w (rowOf i) =
    (opField w == opField (encode i) && wellFormedFields (opField w) (operandField w)) := by
  cases i with
  | nop => exact selects_zRow w (op := 0x0#4) rfl rfl
  | crcInit => exact selects_zRow w (op := 0x1#4) rfl rfl
  | crcByte d => rw [encode, opField_assemble]; exact selects_bRow w (op := 0x2#4) rfl rfl
  | crcChk d => rw [encode, opField_assemble]; exact selects_bRow w (op := 0x3#4) rfl rfl
  | frmStart => exact selects_zRow w (op := 0x8#4) rfl rfl
  | frmByte d => rw [encode, opField_assemble]; exact selects_bRow w (op := 0x9#4) rfl rfl
  | frmAbort => exact selects_zRow w (op := 0xA#4) rfl rfl

/-- Every row of the map is that of a command. -/
theorem exists_rowOf_of_mem {row : Cmd × Cmd} (h : row ∈ opcodeRows) : ∃ i, row = rowOf i := by
  simp only [opcodeRows, List.mem_cons, List.not_mem_nil, or_false] at h
  rcases h with h | h | h | h | h | h | h <;> exact ⟨_, h⟩

/-- A command's word selects its own row and no other: the seven opcodes differ. -/
theorem filter_selects_encode (i : Instr) : opcodeRows.filter (selects (encode i)) = [rowOf i] := by
  have hsel (j : Instr) : selects (encode i) (rowOf j) = (opField (encode i) == opField (encode j)) := by
    rw [selects_rowOf, wellFormedFields_encode, Bool.and_true]
  simp only [opcodeRows, List.filter_cons, hsel, List.filter_nil]
  cases i <;> simp [encode, rowOf]

/-- Settles O6: a word that decodes is its command's word, and a word that does not decode has no legal fields. -/
theorem decodeFollowsOpcodeMap : Obligations.DecodeFollowsOpcodeMap := by
  unfold Obligations.DecodeFollowsOpcodeMap
  refine fun w => ⟨fun i hi => ?_, fun e he => ?_⟩
  · rw [← encode_of_decode hi]; exact filter_selects_encode i
  · have hbad : wellFormedFields (opField w) (operandField w) = false := by rw [← decode_toBool, he]; rfl
    refine List.filter_eq_nil_iff.mpr fun row hrow => ?_
    obtain ⟨i, rfl⟩ := exists_rowOf_of_mem hrow
    simp [selects_rowOf, hbad]

end Sys2Proof

/-! The protocol faults that a command word raises (R59 to R61, R116, R117). -/

namespace Sys2Proof.Machine

/-- The step that takes a word with an encoding fault records it (R59, R60, R117). -/
theorem step_illegal {s : State} {w : Cmd} {rest : List Inputs} {e : Illegal} (hf : s.fault = false)
    (hp : s.pending = presentWord w :: rest) (hw : decode w = .error e) :
    step s = .next (raiseFault (illegalCode e) w (withPending rest s)) := by
  rw [step_inputs hp, acceptInputs_word _ rfl rfl]
  exact acceptWord_illegal hf hw

/-- Settles O3: a word fails for its opcode when that is reserved, and the step then records the word. -/
theorem reservedOpcodeFaults : Obligations.ReservedOpcodeFaults := by
  unfold Obligations.ReservedOpcodeFaults
  have reserved_iff_mem : ∀ op : BitVec 4, reservedOpcode op = true ↔
      op ∈ [0x4#4, 0x5#4, 0x6#4, 0x7#4, 0xB#4, 0xC#4, 0xD#4, 0xE#4, 0xF#4] := by decide
  exact ⟨fun w => decode_error_opcode_iff.trans (reserved_iff_mem _),
    fun w => decode_error_opcode_iff.trans (reservedOpcode_opField_iff w), length_reserved_words,
    fun s w rest hf hp hw => ⟨step_illegal hf hp hw, rfl⟩⟩

/-- Settles O4: a word fails for its operand field when that should be zero, and the step then records the word. -/
theorem nonzeroOperandFaults : Obligations.NonzeroOperandFaults := by
  unfold Obligations.NonzeroOperandFaults
  have zFormat_iff_mem : ∀ op : BitVec 4, zFormatOpcode op = true ↔ op ∈ [0x0#4, 0x1#4, 0x8#4, 0xA#4] := by decide
  refine ⟨fun w => decode_error_operand_iff.trans (and_congr_left' (zFormat_iff_mem _)), length_nonzero_operand_words,
    fun w hpos hle hw => ?_, fun s w rest hf hp hw => ⟨step_illegal hf hp hw, rfl⟩⟩
  rw [← encode_of_decode hw] at hpos
  exact absurd hpos (by decide)

/-- A command that is not legal where it arrives takes its state fault with its own word (R116, R117). -/
theorem exec_blocked {i : Instr} {c : FaultCode} {s : State} (hf : s.fault = false) (hc : stateFault i s = some c) :
    exec i s = .next (raiseFault c (encode i) s) := by
  rw [exec_eq_perform, hc, perform_blocked hf]

/-- Settles O5: the counts, the one word of NOP, and CRC.INIT and FRM.ABORT where they are not legal. -/
theorem wordCounts : Obligations.WordCounts := by
  unfold Obligations.WordCounts
  refine ⟨length_legal_words, length_reserved_words, length_nonzero_operand_words,
    fun w => ⟨fun hw => (encode_of_decode hw).symm, ?_⟩, fun s hf ha => ?_, fun s hf ha => ?_⟩
  · rintro rfl
    exact decode_encode .nop
  · exact (acceptWord_command (decode_encode .crcInit)).trans (exec_blocked hf (crcBlocked_busy ha))
  · exact (acceptWord_command (decode_encode .frmAbort)).trans (exec_blocked hf (frameBlocked_idle ha))

end Sys2Proof.Machine

/-! Runs of presented commands: a command that passes its checks is one step of its effect, and the commands of a
message carry the running value over it (30_encoding.md R64, 40_crc_engine.md R75 to R78). -/

namespace Sys2Proof.Machine

/-- The state check does not look at the host's later actions (R116). -/
@[simp] theorem stateFault_withPending (i : Instr) (l : List Inputs) (s : State) :
    stateFault i (withPending l s) = stateFault i s := by
  cases i <;> rfl

theorem takeFrameByte_withPending (d : Byte) (l : List Inputs) (s : State) :
    takeFrameByte d (withPending l s) = withPending l (takeFrameByte d s) := by
  rcases offset_cases s.idx with h | h | h | h | h | h
  · rw [takeFrameByte_temperature_msb s d h]; exact takeFrameByte_temperature_msb (withPending l s) d h
  · rw [takeFrameByte_temperature_lsb s d h]; exact takeFrameByte_temperature_lsb (withPending l s) d h
  · rw [takeFrameByte_temperature_crc s d h]; exact takeFrameByte_temperature_crc (withPending l s) d h
  · rw [takeFrameByte_humidity_msb s d h]; exact takeFrameByte_humidity_msb (withPending l s) d h
  · rw [takeFrameByte_humidity_lsb s d h]; exact takeFrameByte_humidity_lsb (withPending l s) d h
  · rw [takeFrameByte_humidity_crc s d h, takeFrameByte_humidity_crc (withPending l s) d h]
    ext <;> simp

/-- No command's own effect reads or writes the host's later actions (R7). -/
theorem effectOf_withPending (i : Instr) (l : List Inputs) (s : State) :
    effectOf i (withPending l s) = withPending l (effectOf i s) := by
  cases i with
  | frmByte d => exact takeFrameByte_withPending d l s
  | _ => rfl

/-- The first of several presented commands, where it passes its checks, is one step of its effect. -/
theorem runSteps_present_cons {i : Instr} {s : State} (hf : s.fault = false) (hn : stateFault i s = none) (k : Nat)
    (is : List Instr) (rest : List Inputs) :
    runSteps (k + 1) (withPending (present (i :: is) ++ rest) s) =
      runSteps k (withPending (present is ++ rest) (effectOf i s)) := by
  have hstep : step (withPending (present (i :: is) ++ rest) s) =
      .next (withPending (present is ++ rest) (effectOf i s)) := by
    rw [← effectOf_withPending]
    exact (step_presentInstr i (present is ++ rest) s).trans (exec_runs hf (by simp [hn]))
  rw [runSteps, hstep]

/-- The bytes of a message, fed outside a frame with `crc_match` clear, carry the running value over them and change
nothing else (R76). -/
theorem runSteps_crcBytes (m : List Byte) (k : Nat) (is : List Instr) (rest : List Inputs) {s : State}
    (hf : s.fault = false) (ha : s.active = false) (hm : s.crcMatch = false) :
    runSteps (m.length + k) (withPending (present (m.map .crcByte ++ is) ++ rest) s) =
      runSteps k (withPending (present is ++ rest) { s with crc := crc8From s.crc m }) := by
  induction m generalizing s with
  | nil => simp [crc8From]
  | cons d m ih =>
    have hfed : effectOf (.crcByte d) s = { s with crc := crc8Byte s.crc d } := by
      simp only [effectOf, feedMessage, ← hm]
    have hlegal : stateFault (.crcByte d) s = none := crcBlocked_idle ha
    calc runSteps ((d :: m).length + k) (withPending (present ((d :: m).map .crcByte ++ is) ++ rest) s)
      _ = runSteps (m.length + k + 1) (withPending (present (.crcByte d :: (m.map .crcByte ++ is)) ++ rest) s) := by
        rw [List.length_cons, Nat.add_right_comm, List.map_cons, List.cons_append]
      _ = runSteps (m.length + k) (withPending (present (m.map .crcByte ++ is) ++ rest)
            { s with crc := crc8Byte s.crc d }) := by
        rw [runSteps_present_cons hf hlegal, hfed]
      _ = _ := ih hf ha hm

/-- CRC.BUF and the commands after it (R64). -/
theorem runSteps_crcBuf (m : List Byte) (k : Nat) (is : List Instr) (rest : List Inputs) {s : State}
    (hf : s.fault = false) (ha : s.active = false) :
    runSteps (m.length + k + 1) (withPending (present (crcBuf m ++ is) ++ rest) s) =
      runSteps k (withPending (present is ++ rest) { s with crc := crc8 m, crcMatch := false }) := by
  have hlegal : stateFault .crcInit s = none := crcBlocked_idle ha
  rw [crcBuf, List.cons_append, runSteps_present_cons hf hlegal]
  exact runSteps_crcBytes m k is rest (s := startMessage s) hf ha rfl

/-- Settles O48: CRC.BUF leaves the checksum in `crc`, and CRC.CHK compares it. -/
theorem crcVerifyResult : Obligations.CrcVerifyResult := by
  unfold Obligations.CrcVerifyResult
  refine ⟨fun s m k rest hf ha => ?_, fun b0 b1 k => rfl⟩
  rw [crcVerify]
  refine (runSteps_crcBuf m 1 [.crcChk k] rest hf ha).trans ?_
  exact runSteps_present_cons (i := .crcChk k) (s := { s with crc := crc8 m, crcMatch := false }) hf
    (crcBlocked_idle ha) 0 [] rest

end Sys2Proof.Machine

/-! The text of a command (30_encoding.md R63) and how a line is read. -/

namespace Sys2Proof.Machine

/-! ### Comments and spaces -/

theorem dropComment_append {l : List Char} (h : ';' ∉ l) (cs : List Char) :
    dropComment (l ++ cs) = l ++ dropComment cs := by
  induction l with
  | nil => rfl
  | cons c l ih =>
    have ⟨hc, hl⟩ := List.ne_and_not_mem_of_not_mem_cons h
    rw [List.cons_append, dropComment, if_neg (Ne.symm hc), ih hl, List.cons_append]

theorem dropComment_eq_self {l : List Char} (h : ';' ∉ l) : dropComment l = l := by
  simpa [dropComment] using dropComment_append h []

theorem dropComment_comment (cs : List Char) : dropComment (';' :: cs) = [] := rfl

/-- Text that does not end in a space loses exactly the spaces after it. -/
theorem dropSpacesAtEnd_append {l : List Char} (h : l.getLast? ≠ some ' ') (n : Nat) :
    dropSpacesAtEnd (l ++ List.replicate n ' ') = l := by
  induction l with
  | nil =>
    induction n with
    | zero => rfl
    | succ n ih => rw [List.nil_append] at ih ⊢; simp [List.replicate_succ, dropSpacesAtEnd, ih]
  | cons c l ih =>
    rw [List.cons_append, dropSpacesAtEnd]
    cases l with
    | nil =>
      have hc : c ≠ ' ' := by simpa using h
      rw [ih (by simp)]
      exact if_neg hc
    | cons a l => rw [ih (by simpa using h)]

/-! ### Operands -/

@[simp] theorem hexValue_hexChar : ∀ n : BitVec 4, hexValue (hexChar n) = some n := by decide

/-- A hexadecimal digit neither begins a comment nor is a space. -/
theorem hexChar_ne : ∀ n : BitVec 4, hexChar n ≠ ';' ∧ hexChar n ≠ ' ' := by decide

theorem readOperand_operandText (d : Byte) : readOperand (operandText d) = some d := by
  have halves : d.extractLsb' 4 4 ++ d.extractLsb' 0 4 = d := BitVec.extractLsb'_append_extractLsb' (w := 4)
  simp [readOperand, operandText, halves]

/-! ### Commands -/

theorem readCommand_commandText (i : Instr) : readCommand (commandText i) = some i := by
  cases i with
  | crcByte d | crcChk d | frmByte d =>
    simp [commandText, mnemonic, readCommand, readOperandCommand, afterWord, readOperand_operandText]
  | _ => rfl

/-- What does not read as a command is no command's text. -/
theorem commandText_ne {cs : List Char} (h : readCommand cs = none) (i : Instr) : commandText i ≠ cs := by
  rintro rfl
  simp [readCommand_commandText] at h

theorem semicolon_not_mem_commandText (i : Instr) : ';' ∉ commandText i := by
  cases i with
  | crcByte d | crcChk d | frmByte d => simp [commandText, mnemonic, operandText, (hexChar_ne _).1.symm]
  | _ => decide

theorem getLast?_commandText (i : Instr) : (commandText i).getLast? ≠ some ' ' := by
  cases i with
  | crcByte d | crcChk d | frmByte d => simp [commandText, mnemonic, operandText, (hexChar_ne _).2]
  | _ => decide

/-- A line whose text is a command's, its comment and its last spaces taken away, reads as the command. -/
theorem readLine_of_body {cs : List Char} {i : Instr} (h : dropSpacesAtEnd (dropComment cs) = commandText i) :
    readLine cs = some (.command i) := by
  have hblank : commandText i ≠ [] := commandText_ne rfl i
  have hreset : commandText i ≠ resetText := commandText_ne rfl i
  simp [readLine, h, hblank, hreset, readCommand_commandText]

/-- Settles O7: the comment and the spaces are dropped, for the command's text holds no semicolon and does not end in
a space. -/
theorem commandTextReadsBack : Obligations.CommandTextReadsBack := by
  unfold Obligations.CommandTextReadsBack
  intro i n comment
  have hsemi : ';' ∉ commandText i := semicolon_not_mem_commandText i
  have hspaced : ';' ∉ commandText i ++ List.replicate n ' ' := by simp [hsemi, List.mem_replicate]
  have hkept (m : Nat) : dropSpacesAtEnd (commandText i ++ List.replicate m ' ') = commandText i :=
    dropSpacesAtEnd_append (getLast?_commandText i) m
  refine ⟨readLine_of_body ?_, readLine_of_body ?_⟩
  · rw [dropComment_eq_self hsemi]
    simpa using hkept 0
  · rw [dropComment_append hspaced, dropComment_comment, List.append_nil, hkept]

end Sys2Proof.Machine

/-! The CRC-8 function: one iteration is an injective linear map of the running value, so that a byte step is the
table T of R80 at the XOR, and T is linear and bijective (40_crc_engine.md R70 to R72, R79, R80). -/

namespace Sys2Proof.Machine

/-! ### One iteration -/

/-- A shift to the left by one place is `(2*a) mod 256` (00_scope.md R9). -/
theorem shiftLeft_one_eq_ofNat (c : Byte) : c <<< 1 = BitVec.ofNat 8 (2 * c.toNat % 256) := by
  apply BitVec.eq_of_toNat_eq
  rw [BitVec.toNat_shiftLeft, Nat.shiftLeft_eq, BitVec.toNat_ofNat]
  omega

/-- Settles O8: the shift is a doubling mod 256, and bit 7 is the most significant one. -/
theorem crcIterationIsShiftAndXor : Obligations.CrcIterationIsShiftAndXor := by
  unfold Obligations.CrcIterationIsShiftAndXor
  refine ⟨fun c => ?_, by decide, by decide⟩
  rw [← shiftLeft_one_eq_ofNat]
  rfl

/-- One iteration is linear: the two polynomials of two set top bits cancel. -/
theorem crc8Bit_xor (a b : Byte) : crc8Bit (a ^^^ b) = crc8Bit a ^^^ crc8Bit b := by
  have cancel (x y : Byte) : (x ^^^ poly) ^^^ (y ^^^ poly) = x ^^^ y :=
    calc (x ^^^ poly) ^^^ (y ^^^ poly)
      _ = (x ^^^ y) ^^^ (poly ^^^ poly) := by ac_rfl
      _ = x ^^^ y := by rw [BitVec.xor_self, BitVec.xor_zero]
  simp only [crc8Bit, BitVec.msb_xor, BitVec.shiftLeft_xor_distrib]
  cases a.msb with
  | false =>
    cases b.msb with
    | false => rfl
    | true => exact BitVec.xor_assoc _ _ _
  | true =>
    cases b.msb with
    | false =>
      show (a <<< 1 ^^^ b <<< 1) ^^^ poly = (a <<< 1 ^^^ poly) ^^^ b <<< 1
      ac_rfl
    | true => exact (cancel _ _).symm

/-- Only zero iterates to zero: the polynomial sets bit 0, which the shift has cleared. -/
theorem eq_zero_of_crc8Bit_eq_zero {c : Byte} (h : crc8Bit c = 0x00#8) : c = 0x00#8 := by
  unfold crc8Bit at h
  split at h
  next htop =>
    have hbit0 : ((c <<< 1) ^^^ poly).getLsbD 0 = true := by simp [poly]
    rw [h] at hbit0
    exact absurd hbit0 (by decide)
  next htop =>
    have hlt : 2 * c.toNat < 2 ^ 8 := BitVec.msb_eq_false_iff_two_mul_lt.mp (Bool.eq_false_iff.mpr htop)
    have hzero : (c <<< 1).toNat = 0 := by rw [h]; rfl
    rw [shiftLeft_one_eq_ofNat, BitVec.toNat_ofNat] at hzero
    apply BitVec.eq_of_toNat_eq
    show c.toNat = 0
    omega

theorem crc8Bit_injective : Function.Injective crc8Bit := fun a b h => by
  have hdiff : crc8Bit (a ^^^ b) = 0x00#8 := by rw [crc8Bit_xor, h, BitVec.xor_self]
  exact BitVec.xor_eq_zero_iff.mp (eq_zero_of_crc8Bit_eq_zero hdiff)

theorem iterate_crc8Bit_xor (n : Nat) (a b : Byte) : crc8Bit^[n] (a ^^^ b) = crc8Bit^[n] a ^^^ crc8Bit^[n] b := by
  induction n generalizing a b with
  | zero => rfl
  | succ n ih => simp only [Function.iterate_succ_apply, crc8Bit_xor, ih]

theorem iterate_crc8Bit_zero (n : Nat) : crc8Bit^[n] 0x00#8 = 0x00#8 :=
  Function.iterate_fixed (by decide) n

theorem crc8Bits_eq_iterate (n : Nat) (c : Byte) : crc8Bits n c = crc8Bit^[n] c := by
  induction n generalizing c with
  | zero => rfl
  | succ n ih => exact ih (crc8Bit c)

/-! ### One byte -/

/-- Settles O9, by the iterations of the model's loop. -/
theorem crcByteIsEightIterations : Obligations.CrcByteIsEightIterations := by
  unfold Obligations.CrcByteIsEightIterations
  exact ⟨fun c d => crc8Bits_eq_iterate 8 (c ^^^ d), by decide, by decide⟩

theorem crcTable_eq_iterate (x : Byte) : crcTable x = crc8Bit^[8] x := by
  rw [crcTable, crc8Byte, BitVec.zero_xor, crc8Bits_eq_iterate]

/-- Only the XOR of the running value and the byte matters (R79 item 1). -/
theorem crc8Byte_eq_crcTable (c d : Byte) : crc8Byte c d = crcTable (c ^^^ d) := by
  rw [crcTable_eq_iterate, crc8Byte, crc8Bits_eq_iterate]

@[simp] theorem crcTable_zero : crcTable 0x00#8 = 0x00#8 := by decide

/-- Settles O12: the look-up, and five entries of the table. -/
theorem crcTableForm : Obligations.CrcTableForm := by
  unfold Obligations.CrcTableForm
  exact ⟨crc8Byte_eq_crcTable, crcTable_zero, by decide, by decide, by decide, by decide⟩

theorem crcTable_xor (x y : Byte) : crcTable (x ^^^ y) = crcTable x ^^^ crcTable y := by
  simp only [crcTable_eq_iterate, iterate_crc8Bit_xor]

theorem crcTable_injective : Function.Injective crcTable := by
  rw [funext crcTable_eq_iterate]
  exact crc8Bit_injective.iterate 8

theorem crcTable_bijective : Function.Bijective crcTable :=
  Finite.injective_iff_bijective.mp crcTable_injective

theorem crc8Byte_xor (c1 c2 d1 d2 : Byte) :
    crc8Byte (c1 ^^^ c2) (d1 ^^^ d2) = crc8Byte c1 d1 ^^^ crc8Byte c2 d2 := by
  simp only [crc8Byte_eq_crcTable]
  rw [← crcTable_xor]
  congr 1
  ac_rfl

/-- Settles O14, by the linearity of the table. -/
theorem crcByteLinear : Obligations.CrcByteLinear := by
  unfold Obligations.CrcByteLinear
  exact crc8Byte_xor

theorem xor_left_bijective (c : Byte) : Function.Bijective (c ^^^ ·) :=
  Finite.injective_iff_bijective.mp fun _ _ h => (BitVec.xor_right_inj c).mp h

theorem crc8Byte_bijective_right (c : Byte) : Function.Bijective fun d => crc8Byte c d := by
  simp only [crc8Byte_eq_crcTable]
  exact crcTable_bijective.comp (xor_left_bijective c)

theorem crc8Byte_bijective_left (d : Byte) : Function.Bijective fun c => crc8Byte c d := by
  simp only [crc8Byte_eq_crcTable, BitVec.xor_comm _ d]
  exact crcTable_bijective.comp (xor_left_bijective d)

/-- A byte step leaves zero exactly when the byte is the running value (R79 item 4). -/
@[simp] theorem crc8Byte_eq_zero_iff {c d : Byte} : crc8Byte c d = 0x00#8 ↔ c = d := by
  rw [crc8Byte_eq_crcTable, ← crcTable_zero, crcTable_injective.eq_iff, BitVec.xor_eq_zero_iff]

@[simp] theorem crc8Byte_self (c : Byte) : crc8Byte c c = 0x00#8 := crc8Byte_eq_zero_iff.mpr rfl

/-! ### A sequence of bytes -/

theorem crc8From_append (c : Byte) (m n : List Byte) : crc8From c (m ++ n) = crc8From (crc8From c m) n := by
  induction m generalizing c with
  | nil => rfl
  | cons d m ih => exact ih (crc8Byte c d)

theorem crc8_concat (m : List Byte) (d : Byte) : crc8 (m ++ [d]) = crc8Byte (crc8 m) d :=
  crc8From_append crcInitial m [d]

/-- Settles O10, by induction on the sequence in `crc8From_append`. -/
theorem crcSequenceRecurrence : Obligations.CrcSequenceRecurrence := by
  unfold Obligations.CrcSequenceRecurrence
  exact ⟨rfl, crc8_concat⟩

/-- Settles O11, step by step. -/
theorem crcReferenceVector : Obligations.CrcReferenceVector := by
  unfold Obligations.CrcReferenceVector
  have first : crc8Byte 0xFF#8 0x00#8 = 0xAC#8 := by decide
  have second : crc8Byte 0xAC#8 0x00#8 = 0x81#8 := by decide
  exact ⟨first, by decide, (congrArg (crc8Byte · 0x00#8) first).trans second⟩

/-- The carried value is linear in the starting value and the message together (R79 item 3). -/
theorem crc8From_xor (c1 c2 : Byte) {m1 m2 : List Byte} (h : m1.length = m2.length) :
    crc8From (c1 ^^^ c2) (List.zipWith (· ^^^ ·) m1 m2) = crc8From c1 m1 ^^^ crc8From c2 m2 := by
  induction m1 generalizing c1 c2 m2 with
  | nil =>
    obtain rfl := List.length_eq_zero_iff.mp h.symm
    rfl
  | cons d1 m1 ih =>
    cases m2 with
    | nil => cases h
    | cons d2 m2 =>
      rw [List.zipWith_cons_cons, crc8From, crc8Byte_xor]
      exact ih _ _ (Nat.succ.inj h)

end Sys2Proof.Machine

/-! Validity of a group, and what flipped bits do to it: the residue of one is a power of `x` modulo the polynomial,
and the powers that occur differ (40_crc_engine.md R78, R79 items 2, 4, 5). -/

namespace Sys2Proof.Machine

/-! ### The one checksum and the residue of a group -/

theorem groupValid_iff {b0 b1 k : Byte} : groupValid b0 b1 k = true ↔ crc8 [b0, b1] = k := beq_iff_eq

/-- The test by residue accepts the groups that the compare of R78 accepts (R79 item 4). -/
theorem groupValid_iff_crc8_eq_zero {b0 b1 k : Byte} :
    groupValid b0 b1 k = true ↔ crc8 [b0, b1, k] = 0x00#8 := by
  rw [groupValid_iff, ← crc8Byte_eq_zero_iff, ← crc8_concat]
  rfl

/-- Settles O13: the checksum is the value of the function, and the second byte is the one that the byte step takes to
the checksum. -/
theorem crcByteBijective : Obligations.CrcByteBijective := by
  unfold Obligations.CrcByteBijective
  refine ⟨crc8Byte_bijective_left, crc8Byte_bijective_right, fun b0 b1 => ?_, fun b0 k => ?_⟩
  · simp only [groupValid_iff]
    exact existsUnique_eq'
  · simp only [groupValid_iff]
    exact (crc8Byte_bijective_right (crc8 [b0])).existsUnique k

/-- Settles O15: feeding the running value itself leaves zero, and nothing else does. -/
theorem crcZeroResidue : Obligations.CrcZeroResidue := by
  unfold Obligations.CrcZeroResidue
  refine ⟨fun m => ?_, fun b0 b1 k => groupValid_iff_crc8_eq_zero, crc8Byte_self _, crc8Byte_self _⟩
  rw [crc8_concat, crc8Byte_self]

/-! ### Flipped bits -/

/-- The three bytes of a group, in the order in which they arrive. -/
def groupBytes (g : BitVec 24) : List Byte := [g.extractLsb' 16 8, g.extractLsb' 8 8, g.extractLsb' 0 8]

theorem groupBytes_xor (g1 g2 : BitVec 24) :
    groupBytes (g1 ^^^ g2) = List.zipWith (· ^^^ ·) (groupBytes g1) (groupBytes g2) := by
  simp [groupBytes, BitVec.extractLsb'_xor]

/-- The running value `c` carried over the three bytes of a group. -/
def groupResidue (c : Byte) (g : BitVec 24) : Byte := crc8From c (groupBytes g)

theorem groupValid_iff_groupResidue {g : BitVec 24} :
    groupValid (g.extractLsb' 16 8) (g.extractLsb' 8 8) (g.extractLsb' 0 8) = true ↔
      groupResidue crcInitial g = 0x00#8 :=
  groupValid_iff_crc8_eq_zero

theorem groupResidue_xor (c1 c2 : Byte) (g1 g2 : BitVec 24) :
    groupResidue (c1 ^^^ c2) (g1 ^^^ g2) = groupResidue c1 g1 ^^^ groupResidue c2 g2 := by
  rw [groupResidue, groupBytes_xor]
  exact crc8From_xor c1 c2 rfl

/-- Flipping the bits of `e` in a valid group makes it invalid when they leave a non-zero residue of their own. -/
theorem groupValid_flip {g e : BitVec 24}
    (hg : groupValid (g.extractLsb' 16 8) (g.extractLsb' 8 8) (g.extractLsb' 0 8) = true)
    (he : groupResidue 0x00#8 e ≠ 0x00#8) :
    groupValid ((g ^^^ e).extractLsb' 16 8) ((g ^^^ e).extractLsb' 8 8) ((g ^^^ e).extractLsb' 0 8) = false := by
  have hflip : groupResidue crcInitial (g ^^^ e) = groupResidue 0x00#8 e :=
    calc groupResidue crcInitial (g ^^^ e)
      _ = groupResidue (crcInitial ^^^ 0x00#8) (g ^^^ e) := by rw [BitVec.xor_zero]
      _ = groupResidue crcInitial g ^^^ groupResidue 0x00#8 e := groupResidue_xor _ _ _ _
      _ = groupResidue 0x00#8 e := by rw [groupValid_iff_groupResidue.mp hg, BitVec.zero_xor]
  rw [← Bool.not_eq_true, groupValid_iff_groupResidue, hflip]
  exact he

set_option maxRecDepth 1000 in
/-- Bit `i` of a group, counted from its end, passes `8 + i` iterations: it leaves the power `x^(8+i)`. -/
theorem groupResidue_bit : ∀ i : Fin 24, groupResidue 0x00#8 (1#24 <<< i.val) = crc8Bit^[8 + i.val] 0x01#8 := by
  decide

/-- The order of `x` is at least 24. -/
theorem iterate_crc8Bit_one_ne_one : ∀ n : Fin 24, n ≠ 0 → crc8Bit^[n.val] 0x01#8 ≠ 0x01#8 := by decide

theorem groupResidue_bit_ne_zero (i : Fin 24) : groupResidue 0x00#8 (1#24 <<< i.val) ≠ 0x00#8 := by
  rw [groupResidue_bit, ← iterate_crc8Bit_zero (8 + i.val)]
  exact (crc8Bit_injective.iterate _).ne (by decide)

/-- The bits of a group leave different residues: equal powers of `x` would make the order of `x` too small. -/
theorem groupResidue_bit_injective : Function.Injective fun i : Fin 24 => groupResidue 0x00#8 (1#24 <<< i.val) := by
  refine .of_lt_imp_ne fun i j hij h => ?_
  simp only [groupResidue_bit] at h
  have hfixed : crc8Bit^[8 + j.val - (8 + i.val)] 0x01#8 = 0x01#8 := Function.iterate_cancel crc8Bit_injective h.symm
  refine iterate_crc8Bit_one_ne_one ⟨8 + j.val - (8 + i.val), by omega⟩ (fun hzero => ?_) hfixed
  have := congrArg Fin.val hzero
  simp only [Fin.val_zero] at this
  omega

/-- Settles O16: the residue of the flipped bits is that of one bit, or the XOR of two different residues. -/
theorem groupErrorDetection : Obligations.GroupErrorDetection := by
  unfold Obligations.GroupErrorDetection
  refine fun g i j hg => ⟨groupValid_flip hg (groupResidue_bit_ne_zero i), fun hij => ?_⟩
  have hdiff : groupResidue 0x00#8 (1#24 <<< i.val ^^^ 1#24 <<< j.val) ≠ 0x00#8 := by
    rw [← BitVec.xor_self (x := 0x00#8), groupResidue_xor, BitVec.xor_self, Ne, BitVec.xor_eq_zero_iff]
    exact groupResidue_bit_injective.ne hij
  rw [BitVec.xor_assoc]
  exact groupValid_flip hg hdiff

end Sys2Proof.Machine

/-! The commands of the CRC engine, alone and in a message (40_crc_engine.md R75 to R77). -/

namespace Sys2Proof.Machine

/-- A command word is its opcode in bits 11 to 8 and its operand in bits 7 to 0 (R56, R57). -/
theorem assemble_eq_or (op : BitVec 4) (d : Byte) : assemble op d = op.setWidth 12 <<< 8 ||| d.setWidth 12 :=
  (BitVec.setWidth_eq (op ++ d)).symm.trans BitVec.setWidth_append_eq_shiftLeft_setWidth_or

/-- A Z-format word with a non-zero operand field takes fault 2 (R60, R117). -/
theorem acceptWord_assemble_operand {op : BitVec 4} {d : Byte} {s : State} (hz : zFormatOpcode op = true)
    (hd : d ≠ 0x00#8) (hf : s.fault = false) :
    acceptWord (assemble op d) s = .next (raiseFault .illegalOperand (assemble op d) s) :=
  acceptWord_illegal hf (decode_error_operand_iff.mpr (by simp [hz, hd]))

/-- Settles O18: CRC.INIT's own effect, its state fault and its operand fault. -/
theorem crcInitResult : Obligations.CrcInitResult := by
  unfold Obligations.CrcInitResult
  exact ⟨rfl, fun s hf ha => ⟨exec_runs hf (crcBlocked_idle ha),
      exec_runs (s := startMessage s) hf (crcBlocked_idle (s := startMessage s) ha)⟩,
    fun s hf ha => exec_blocked hf (crcBlocked_busy ha),
    fun s d hf hd => acceptWord_assemble_operand rfl hd hf, exec_runs rfl rfl⟩

/-- Settles O20: CRC.CHK's own effect and state fault, and after CRC.BUF the compare of a group. -/
theorem crcChkResult : Obligations.CrcChkResult := by
  unfold Obligations.CrcChkResult
  obtain ⟨verify, valid⟩ := crcVerifyResult
  refine ⟨assemble_eq_or 0x3#4, fun s d hf ha => exec_runs hf (crcBlocked_idle ha),
    fun s d hf ha => exec_blocked hf (crcBlocked_busy ha), fun s b0 b1 k rest hf ha => ?_, exec_runs rfl rfl⟩
  rw [valid]
  exact verify s [b0, b1] k rest hf ha

/-- The commands that may stand between the CRC.INIT of a message and its last byte: legal outside a frame, and none
writes `crc` but CRC.BYTE (R76). -/
def IsMessageCommand (i : Instr) : Prop := i = .nop ∨ (∃ d, i = .crcByte d) ∨ ∃ k, i = .crcChk k

/-- A command of a message is legal outside a frame and carries `crc` over its byte, if it has one. -/
theorem effectOf_messageCommand {i : Instr} (hi : IsMessageCommand i) {s : State} (ha : s.active = false) :
    stateFault i s = none ∧
      ∃ m, effectOf i s = { s with crc := crc8From s.crc (messageBytes [i]), crcMatch := m } := by
  rcases hi with rfl | ⟨d, rfl⟩ | ⟨k, rfl⟩
  · exact ⟨rfl, s.crcMatch, rfl⟩
  · exact ⟨crcBlocked_idle ha, false, rfl⟩
  · exact ⟨crcBlocked_idle ha, crcMatches s.crc k, rfl⟩

theorem messageBytes_cons (i : Instr) (is : List Instr) :
    messageBytes (i :: is) = messageBytes [i] ++ messageBytes is := by
  cases i <;> rfl

/-- The commands of a message carry `crc` over its bytes and change nothing else but `crc_match` (R76). -/
theorem runSteps_messageCommands {is : List Instr} (his : ∀ i ∈ is, IsMessageCommand i) (rest : List Inputs)
    {s : State} (hf : s.fault = false) (ha : s.active = false) :
    ∃ m, runSteps is.length (withPending (present is ++ rest) s) =
      .next { s with pending := rest, crc := crc8From s.crc (messageBytes is), crcMatch := m } := by
  induction is generalizing s with
  | nil => exact ⟨s.crcMatch, rfl⟩
  | cons i is ih =>
    obtain ⟨hi, htail⟩ := List.forall_mem_cons.mp his
    obtain ⟨hlegal, m, heffect⟩ := effectOf_messageCommand hi ha
    obtain ⟨m', hrun⟩ := ih htail (s := { s with crc := crc8From s.crc (messageBytes [i]), crcMatch := m }) hf ha
    refine ⟨m', ?_⟩
    rw [List.length_cons, runSteps_present_cons hf hlegal, heffect, hrun, messageBytes_cons i is, crc8From_append]

/-- Settles O19: CRC.BYTE's own effect and state fault, and runs of CRC.BYTE alone and with the commands that leave
`crc`. -/
theorem crcByteResult : Obligations.CrcByteResult := by
  unfold Obligations.CrcByteResult
  refine ⟨assemble_eq_or 0x2#4, fun s d hf ha => exec_runs hf (crcBlocked_idle ha),
    fun s d hf ha => exec_blocked hf (crcBlocked_busy ha), fun s hf ha => ?ownByte, by decide, by decide,
    fun s m rest hf ha => ?buf, fun s d m rest hf ha => ?continued,
    fun s is rest hf ha his => ⟨runSteps_messageCommands his rest hf ha, ?started⟩⟩
  case ownByte =>
    have hlegal : stateFault (.crcByte s.crc) s = none := crcBlocked_idle ha
    rw [exec_runs hf hlegal, effectOf, feedMessage, crc8Byte_self]
  case buf =>
    rw [← List.append_nil (crcBuf m)]
    exact runSteps_crcBuf m 0 [] rest hf ha
  case continued =>
    have hlegal : stateFault (.crcByte d) s = none := crcBlocked_idle ha
    rw [List.map_cons, runSteps_present_cons hf hlegal, ← List.append_nil (m.map Instr.crcByte)]
    exact runSteps_crcBytes m 0 [] rest (s := feedMessage d s) hf ha rfl
  case started =>
    have hlegal : stateFault .crcInit s = none := crcBlocked_idle ha
    rw [runSteps_present_cons hf hlegal]
    exact runSteps_messageCommands his rest (s := startMessage s) hf ha

end Sys2Proof.Machine

/-! The frame receiver's commands, alone (41_frame_receiver.md R86 to R89). -/

namespace Sys2Proof.Machine

/-! ### One command in a frame or outside one -/

theorem checksumDiffers_eq_decide (c d : Byte) : checksumDiffers c d = decide (c ≠ d) := by
  rw [Bool.eq_iff_iff]
  simp [checksumDiffers]

/-- In a frame FRM.BYTE takes its byte, whatever the offset (R87, R88). -/
theorem exec_frmByte_busy (d : Byte) {s : State} (hf : s.fault = false) (ha : s.active = true) :
    exec (.frmByte d) s = .next (takeFrameByte d s) :=
  exec_runs hf (frameBlocked_busy ha)

/-- Outside a frame FRM.BYTE takes fault 4 (R87, R116). -/
theorem exec_frmByte_idle (d : Byte) {s : State} (hf : s.fault = false) (ha : s.active = false) :
    exec (.frmByte d) s = .next (raiseFault .frmIdle (assemble 0x9#4 d) s) :=
  exec_blocked hf (frameBlocked_idle ha)

/-- Settles O21: FRM.START's own effect and its operand fault. -/
theorem frmStartResult : Obligations.FrmStartResult := by
  unfold Obligations.FrmStartResult
  exact ⟨rfl, fun s hf => exec_runs hf rfl, fun s d hf hd => acceptWord_assemble_operand rfl hd hf,
    startFrame State.reset, exec_runs rfl rfl, rfl, rfl, rfl⟩

/-- Settles O22: the frame byte at each of the offsets 0 to 4, and its state fault. -/
theorem frmByteResult : Obligations.FrmByteResult := by
  unfold Obligations.FrmByteResult
  refine ⟨assemble_eq_or 0x9#4, fun s d hf ha => ?offsets, by decide, fun s d hf ha => exec_frmByte_idle d hf ha⟩
  case offsets =>
    rw [exec_frmByte_busy d hf ha, ← checksumDiffers_eq_decide]
    exact ⟨fun h => congrArg _ (takeFrameByte_temperature_msb s d h),
      fun h => congrArg _ (takeFrameByte_temperature_lsb s d h),
      fun h => congrArg _ (takeFrameByte_temperature_crc s d h),
      fun h => congrArg _ (takeFrameByte_humidity_msb s d h),
      fun h => congrArg _ (takeFrameByte_humidity_lsb s d h)⟩

/-- The sixth byte of a frame whose two checks pass (R88). -/
theorem endFrame_passed {d : Byte} {s : State} (herr : s.errT = false) (hcrc : s.crc = d) :
    endFrame d s = { s with
      errH := false, active := false, done := true, idx := 0, ok := true, rawT := s.stgT, rawH := s.stgH,
      sampleValid := true } := by
  have hsame : checksumDiffers s.crc d = false := by simp [checksumDiffers, hcrc]
  ext1 <;> simp [framePassed, herr, hsame]

/-- The sixth byte of a frame with a check that fails (R88). -/
theorem endFrame_failed {d : Byte} {s : State} (h : s.errT = true ∨ s.crc ≠ d) :
    endFrame d s = { s with
      errH := checksumDiffers s.crc d, active := false, done := true, idx := 0, ok := false } := by
  have hfail : framePassed s.errT (checksumDiffers s.crc d) = false := by
    rw [← Bool.not_eq_true, framePassed_checksumDiffers]
    rintro ⟨herr, hcrc⟩
    rcases h with h | h
    · exact nomatch herr.symm.trans h
    · exact h hcrc
  ext1 <;> simp [hfail]

/-- Settles O23: the two ends of a frame; after either no frame is in progress, so that a seventh byte faults. -/
theorem frmByteEndsFrame : Obligations.FrmByteEndsFrame := by
  unfold Obligations.FrmByteEndsFrame
  obtain ⟨-, -, zeros⟩ := crcReferenceVector
  have last : crc8Byte 0x00#8 0xFF#8 = 0xAC#8 := by decide
  have ones : crc8 [0xFF#8, 0xFF#8] = 0xAC#8 := (congrArg (crc8Byte · 0xFF#8) (crc8Byte_self 0xFF#8)).trans last
  have exec_sixth {s : State} (d : Byte) (hf : s.fault = false) (ha : s.active = true) (hk : s.idx = 5) :
      exec (.frmByte d) s = .next (endFrame d s) := by
    rw [exec_frmByte_busy d hf ha, takeFrameByte_humidity_crc s d hk]
  refine ⟨fun s d hf ha hk => ?ends, ⟨groupValid_iff.mpr zeros, groupValid_iff.mpr ones⟩,
    fun s t u d d' hf ha hk ht hu => ?seventh⟩
  case ends =>
    rw [exec_sixth d hf ha hk, ← checksumDiffers_eq_decide]
    exact ⟨fun herr hcrc => congrArg _ (endFrame_passed herr hcrc), fun h => congrArg _ (endFrame_failed h)⟩
  case seventh =>
    obtain rfl : endFrame d s = t := Host.Outcome.next.inj ((exec_sixth d hf ha hk).symm.trans ht)
    have hfault := exec_frmByte_idle d' (s := endFrame d s) (by simp [hf]) (endFrame_active s d)
    exact Host.Outcome.next.inj (hu.symm.trans hfault)

/-- Settles O24: FRM.ABORT's own effect, its state fault and its operand fault. -/
theorem frmAbortResult : Obligations.FrmAbortResult := by
  unfold Obligations.FrmAbortResult
  exact ⟨rfl, fun s hf ha => exec_runs hf (frameBlocked_busy ha),
    fun s hf ha => exec_blocked hf (frameBlocked_idle ha), fun s d hf hd => acceptWord_assemble_operand rfl hd hf⟩

/-- Settles O45: FRM.START writes every element but the sample and the fault registers, which R34 item 9 fixes. -/
theorem frmStartForgetsTheRest : Obligations.FrmStartForgetsTheRest := by
  unfold Obligations.FrmStartForgetsTheRest
  intro s1 s2 h1 h2 hf1 hf2 hT hH hv hdraw hpending
  obtain ⟨hcode1, hcmd1⟩ := h1.no_fault hf1
  obtain ⟨hcode2, hcmd2⟩ := h2.no_fault hf2
  have hsame : startFrame s1 = startFrame s2 := by
    ext1 <;> simp [hT, hH, hv, hdraw, hpending, hf1, hf2, hcode1, hcode2, hcmd1, hcmd2]
  exact ⟨startFrame s1, exec_runs hf1 rfl, by rw [hsame]; exact exec_runs hf2 rfl⟩

end Sys2Proof.Machine

/-! Whole frames (41_frame_receiver.md R93): the bytes of a frame as one effect, group by group. -/

namespace Sys2Proof.Machine

/-- Several frame bytes, one after another. -/
def takeFrameBytes (m : List Byte) (s : State) : State := m.foldl (fun t d => takeFrameByte d t) s

theorem takeFrameBytes_cons (d : Byte) (m : List Byte) (s : State) :
    takeFrameBytes (d :: m) s = takeFrameBytes m (takeFrameByte d s) := rfl

theorem takeFrameBytes_append (m n : List Byte) (s : State) :
    takeFrameBytes (m ++ n) s = takeFrameBytes n (takeFrameBytes m s) :=
  List.foldl_append

@[simp] theorem takeFrameBytes_fault (m : List Byte) (s : State) : (takeFrameBytes m s).fault = s.fault := by
  induction m generalizing s with
  | nil => rfl
  | cons d m ih => rw [takeFrameBytes_cons, ih, takeFrameByte_fault]

/-- A frame is in progress until its sixth byte (R23, R24). -/
theorem takeFrameBytes_active {m : List Byte} {s : State} (ha : s.active = true) (hm : s.idx.val + m.length < 6) :
    (takeFrameBytes m s).active = true := by
  induction m generalizing s with
  | nil => exact ha
  | cons d m ih =>
    rw [List.length_cons] at hm
    rcases takeFrameByte_sequencing d ha with ⟨hk, -⟩ | ⟨-, ha', hk'⟩
    · have hk5 : s.idx.val = 5 := congrArg Fin.val hk
      omega
    · have hm' : (takeFrameByte d s).idx.val + m.length < 6 := by omega
      exact ih ha' hm'

/-- The bytes of a frame, presented in it and not more than six, are taken one in each step. -/
theorem runSteps_frmBytes (m : List Byte) (k : Nat) (is : List Instr) (rest : List Inputs) {s : State}
    (hf : s.fault = false) (ha : s.active = true) (hm : s.idx.val + m.length ≤ 6) :
    runSteps (m.length + k) (withPending (present (m.map .frmByte ++ is) ++ rest) s) =
      runSteps k (withPending (present is ++ rest) (takeFrameBytes m s)) := by
  induction m using List.reverseRecOn generalizing k is with
  | nil => rw [List.length_nil, Nat.zero_add]; rfl
  | append_singleton m d ih =>
    rw [List.length_append, List.length_singleton] at hm
    have hlegal : stateFault (.frmByte d) (takeFrameBytes m s) = none :=
      frameBlocked_busy (takeFrameBytes_active ha (by omega))
    calc runSteps ((m ++ [d]).length + k) (withPending (present ((m ++ [d]).map .frmByte ++ is) ++ rest) s)
      _ = runSteps (m.length + (k + 1)) (withPending (present (m.map .frmByte ++ .frmByte d :: is) ++ rest) s) := by
        rw [List.length_append, List.length_singleton, Nat.add_assoc, Nat.add_comm 1 k, List.map_append,
          List.append_assoc]
        rfl
      _ = runSteps (k + 1) (withPending (present (.frmByte d :: is) ++ rest) (takeFrameBytes m s)) :=
        ih (k + 1) (.frmByte d :: is) (by omega)
      _ = runSteps k (withPending (present is ++ rest) (takeFrameBytes (m ++ [d]) s)) := by
        rw [runSteps_present_cons ((takeFrameBytes_fault m s).trans hf) hlegal, takeFrameBytes_append]
        rfl

/-- FRM.START and up to six bytes, from any state that is not stopped. -/
theorem runSteps_startFrame {m : List Byte} (hm : m.length ≤ 6) (k : Nat) (is : List Instr) (rest : List Inputs)
    {s : State} (hf : s.fault = false) :
    runSteps (m.length + k + 1) (withPending (present (.frmStart :: (m.map .frmByte ++ is)) ++ rest) s) =
      runSteps k (withPending (present is ++ rest) (takeFrameBytes m (startFrame s))) := by
  rw [runSteps_present_cons (i := .frmStart) hf rfl]
  exact runSteps_frmBytes m k is rest (s := startFrame s) hf rfl (by simpa using hm)

/-! ### The two groups -/

theorem checksumDiffers_crc8 (b0 b1 k : Byte) : checksumDiffers (crc8 [b0, b1]) k = !groupValid b0 b1 k := rfl

/-- The first three bytes: the temperature word is staged and its checksum compared. -/
theorem takeFrameBytes_temperature (b0 b1 b2 : Byte) {s : State} (hk : s.idx = 0) :
    takeFrameBytes [b0, b1, b2] s =
      { s with stgT := rawWord b0 b1, crc := crc8 [b0, b1], errT := !groupValid b0 b1 b2, idx := 3 } := by
  rw [takeFrameBytes_cons, takeFrameByte_temperature_msb s b0 hk, takeFrameBytes_cons,
    takeFrameByte_temperature_lsb _ b1 rfl, takeFrameBytes_cons, takeFrameByte_temperature_crc _ b2 rfl,
    ← setLow_setHigh s.stgT]
  rfl

/-- The last three bytes: the humidity word is staged, and the frame ends with its checksum. -/
theorem takeFrameBytes_humidity (b3 b4 b5 : Byte) {s : State} (hk : s.idx = 3) :
    takeFrameBytes [b3, b4, b5] s =
      endFrame b5 { s with stgH := rawWord b3 b4, crc := crc8 [b3, b4], idx := 5 } := by
  rw [takeFrameBytes_cons, takeFrameByte_humidity_msb s b3 hk, takeFrameBytes_cons,
    takeFrameByte_humidity_lsb _ b4 rfl, takeFrameBytes_cons, takeFrameByte_humidity_crc _ b5 rfl,
    ← setLow_setHigh s.stgH]
  rfl

/-- The six bytes of a frame, group by group. -/
theorem takeFrameBytes_frame (b0 b1 b2 b3 b4 b5 : Byte) (s : State) :
    takeFrameBytes [b0, b1, b2, b3, b4, b5] (startFrame s) =
      endFrame b5 { startFrame s with
        stgT := rawWord b0 b1, errT := !groupValid b0 b1 b2, stgH := rawWord b3 b4, crc := crc8 [b3, b4], idx := 5 } := by
  have htwo : [b0, b1, b2, b3, b4, b5] = [b0, b1, b2] ++ [b3, b4, b5] := rfl
  rw [htwo, takeFrameBytes_append, takeFrameBytes_temperature b0 b1 b2 (startFrame_idx s),
    takeFrameBytes_humidity b3 b4 b5 rfl]

/-- Settles O49: after the six bytes the frame has ended with the flags of its two groups, and it was committed exactly
when both are valid. -/
theorem frameFunction : Obligations.FrameFunction := by
  unfold Obligations.FrameFunction
  intro s b0 b1 b2 b3 b4 b5 rest hf
  have hrun : runSteps 7 (withPending (present (frmRx b0 b1 b2 b3 b4 b5) ++ rest) s) =
      .next (withPending rest (takeFrameBytes [b0, b1, b2, b3, b4, b5] (startFrame s))) :=
    runSteps_startFrame (m := [b0, b1, b2, b3, b4, b5]) (by simp) 0 [] rest hf
  have hvalid (b0 b1 k : Byte) : decide (crc8 [b0, b1] = k) = groupValid b0 b1 k := rfl
  simp only [hvalid]
  rw [hrun, takeFrameBytes_frame]
  refine congrArg _ ?_
  ext1 <;> simp [checksumDiffers_crc8, framePassed, rawWord, cond_eq_ite]

end Sys2Proof.Machine

/-! What the status byte reports of a frame (41_frame_receiver.md R95). -/

namespace Sys2Proof.Machine

/-- The row of R95 by the flags of the state (R30). -/
theorem frameReport_outputs (s : State) : frameReport (outputs s).status =
    if s.fault then .stopped
    else if s.done then
      if s.ok then .success
      else if s.errAbort then .transportError
      else if s.errT || s.errH then .mismatch
      else .notInTable
    else if s.active then .inProgress
    else .noFrame := by
  obtain ⟨hactive, hdone, hok, herrT, herrH, habort, -, hfault⟩ := statusByteBits s
  rw [frameReport, hactive, hdone, hok, herrT, herrH, habort, hfault]

/-- What a complete frame leaves, by the validity of its groups (R93). -/
theorem runSteps_frmRx (b0 b1 b2 b3 b4 b5 : Byte) (rest : List Inputs) {s : State} (hf : s.fault = false) :
    ∃ t, runSteps 7 (withPending (present (frmRx b0 b1 b2 b3 b4 b5) ++ rest) s) = .next t ∧
      t.fault = false ∧ t.done = true ∧ t.errAbort = false ∧
      t.errT = !groupValid b0 b1 b2 ∧ t.errH = !groupValid b3 b4 b5 ∧
      t.ok = (groupValid b0 b1 b2 && groupValid b3 b4 b5) ∧
      (t.ok = false → t.rawT = s.rawT ∧ t.rawH = s.rawH ∧ t.sampleValid = s.sampleValid) := by
  refine ⟨_, frameFunction s b0 b1 b2 b3 b4 b5 rest hf, hf, rfl, rfl, rfl, rfl, rfl, fun hok => ?_⟩
  have hfailed := Bool.eq_false_iff.mp hok
  exact ⟨if_neg hfailed, if_neg hfailed, congrArg (· || s.sampleValid) hok⟩

/-- Settles O54: the flags of a complete frame are those of its groups (R93), an aborted one has `err_abort`, and in
any state R34 leaves one row. -/
theorem statusReportsFrame : Obligations.StatusReportsFrame := by
  unfold Obligations.StatusReportsFrame
  refine ⟨fun s b0 b1 b2 b3 b4 b5 rest hf => ?complete, fun s m rest hf hm => ?aborted,
    fun s hs => ⟨fun hf => ?stopped, fun hf ha => ?inProgress, fun hf ha hd => ?noFrame, fun hf hd hok => ?success,
      fun hf hd hok => ?failure⟩⟩
  case complete =>
    obtain ⟨t, hrun, hft, hdone, habort, herrT, herrH, hok, -⟩ := runSteps_frmRx b0 b1 b2 b3 b4 b5 rest hf
    refine ⟨t, hrun, ?_⟩
    cases hpass : groupValid b0 b1 b2 && groupValid b3 b4 b5 with
    | true => simp [frameReport_outputs, hft, hdone, hok, hpass, reportReturn]
    | false =>
      have herr : (t.errT || t.errH) = true := by rw [herrT, herrH, ← Bool.not_and, hpass]; rfl
      simp [frameReport_outputs, hft, hdone, habort, hok, hpass, herr, reportReturn]
  case aborted =>
    have hactive : (takeFrameBytes m (startFrame s)).active = true :=
      takeFrameBytes_active rfl (by simpa using hm)
    have hft : (takeFrameBytes m (startFrame s)).fault = false := (takeFrameBytes_fault m _).trans hf
    have hlegal : stateFault .frmAbort (takeFrameBytes m (startFrame s)) = none := frameBlocked_busy hactive
    have hreport : frameReport (outputs (withPending rest (abortFrame (takeFrameBytes m (startFrame s))))).status =
        .transportError := by
      simp [frameReport_outputs, hf]
    refine ⟨withPending rest (abortFrame (takeFrameBytes m (startFrame s))), ?_, hreport, by rw [hreport]; rfl⟩
    exact (runSteps_startFrame hm.le 1 [.frmAbort] rest hf).trans (runSteps_present_cons hft hlegal 0 [] rest)
  case stopped => simp [frameReport_outputs, hf, reportReturn]
  case inProgress =>
    obtain ⟨hdone, -⟩ := hs.busy_flags ha
    simp [frameReport_outputs, hf, ha, hdone, reportReturn]
  case noFrame => simp [frameReport_outputs, hf, ha, hd, reportReturn]
  case success => simp [frameReport_outputs, hf, hd, hok, reportReturn]
  case failure =>
    cases habort : s.errAbort with
    | true => simp [frameReport_outputs, hf, hd, hok, habort, reportReturn]
    | false =>
      have hmismatch : (s.errT || s.errH) = true := by
        have hclear : ¬(s.errT = false ∧ s.errH = false) :=
          fun h => nomatch hok.symm.trans ((hs.done_ok hd habort).mpr h)
        rwa [← Bool.not_eq_false, Bool.or_eq_false_iff]
      simp [frameReport_outputs, hf, hd, hok, habort, hmismatch, reportReturn]

end Sys2Proof.Machine

/-! Frames with flipped bits (41_frame_receiver.md R94): the flipped bits of a frame are flipped bits of one group
(40_crc_engine.md R79 item 5), and the other group keeps its bytes. -/

namespace Sys2Proof.Machine

/-- The word has one bit set, or two different ones, all in the places from `lo` to below `hi`. -/
def FlipsBits {w : Nat} (lo hi : Nat) (e : BitVec w) : Prop :=
  ∃ i j : Nat, (lo ≤ i ∧ i < hi) ∧ (lo ≤ j ∧ j < hi) ∧ (e = 1#w <<< i ∨ (i ≠ j ∧ e = 1#w <<< i ^^^ 1#w <<< j))

/-- The group of three bytes that a 24-bit word holds is valid (R78). -/
def groupWordValid (g : BitVec 24) : Bool :=
  groupValid (g.extractLsb' 16 8) (g.extractLsb' 8 8) (g.extractLsb' 0 8)

theorem groupWordValid_flip {g e : BitVec 24} (hg : groupWordValid g = true) (he : FlipsBits 0 24 e) :
    groupWordValid (g ^^^ e) = false := by
  obtain ⟨i, j, ⟨-, hi⟩, ⟨-, hj⟩, he⟩ := he
  obtain ⟨hone, htwo⟩ := groupErrorDetection g ⟨i, hi⟩ ⟨j, hj⟩ hg
  rcases he with rfl | ⟨hij, rfl⟩
  · exact hone
  · rw [← BitVec.xor_assoc]
    exact htwo (Fin.ne_of_val_ne hij)

/-! ### The groups of a frame word -/

/-- The group whose last bit is bit `base` of the frame word: 24 for the temperature group, 0 for the humidity group. -/
def groupAt (base : Nat) (f : BitVec 48) : BitVec 24 := f.extractLsb' base 24

theorem groupAt_xor (base : Nat) (f e : BitVec 48) : groupAt base (f ^^^ e) = groupAt base f ^^^ groupAt base e :=
  BitVec.extractLsb'_xor

theorem extractLsb'_groupAt (base : Nat) (f : BitVec 48) {k : Nat} (hk : k + 8 ≤ 24) :
    (groupAt base f).extractLsb' k 8 = f.extractLsb' (base + k) 8 := by
  ext n hn
  have hlt : k + n < 24 := by omega
  simp [groupAt, BitVec.getElem_extractLsb', hlt, Nat.add_assoc]

theorem groupWordValid_groupAt (base : Nat) (f : BitVec 48) : groupWordValid (groupAt base f) =
    groupValid (f.extractLsb' (base + 16) 8) (f.extractLsb' (base + 8) 8) (f.extractLsb' base 8) := by
  rw [groupWordValid, extractLsb'_groupAt base f (by omega), extractLsb'_groupAt base f (by omega),
    extractLsb'_groupAt base f (by omega)]
  rfl

/-- A bit of the frame is a bit of the group it stands in, in the group's own count. -/
theorem groupAt_bit_inside {base i : Nat} (hbase : base + 24 ≤ 48) (hi : base ≤ i ∧ i < base + 24) :
    groupAt base (1#48 <<< i) = 1#24 <<< (i - base) := by
  ext n hn
  rw [groupAt, BitVec.getElem_extractLsb', ← BitVec.twoPow_eq, ← BitVec.twoPow_eq, BitVec.getLsbD_twoPow,
    BitVec.getElem_twoPow, Bool.eq_iff_iff]
  simp only [Bool.and_eq_true, decide_eq_true_eq]
  omega

theorem groupAt_bit_outside {base i : Nat} (hi : i < base ∨ base + 24 ≤ i) : groupAt base (1#48 <<< i) = 0#24 := by
  ext n hn
  rw [groupAt, BitVec.getElem_extractLsb', ← BitVec.twoPow_eq, BitVec.getLsbD_twoPow, BitVec.getElem_zero,
    Bool.and_eq_false_iff, decide_eq_false_iff_not, decide_eq_false_iff_not]
  omega

theorem groupAt_flips_inside {base : Nat} (hbase : base + 24 ≤ 48) {e : BitVec 48}
    (he : FlipsBits base (base + 24) e) : FlipsBits 0 24 (groupAt base e) := by
  obtain ⟨i, j, hi, hj, he⟩ := he
  refine ⟨i - base, j - base, by omega, by omega, ?_⟩
  rcases he with rfl | ⟨hij, rfl⟩
  · exact .inl (groupAt_bit_inside hbase hi)
  · exact .inr ⟨by omega, by rw [groupAt_xor, groupAt_bit_inside hbase hi, groupAt_bit_inside hbase hj]⟩

theorem groupAt_flips_outside {base lo hi : Nat} (hdisjoint : hi ≤ base ∨ base + 24 ≤ lo) {e : BitVec 48}
    (he : FlipsBits lo hi e) : groupAt base e = 0#24 := by
  obtain ⟨i, j, hi, hj, rfl | ⟨-, rfl⟩⟩ := he
  · exact groupAt_bit_outside (by omega)
  · rw [groupAt_xor, groupAt_bit_outside (by omega), groupAt_bit_outside (by omega), BitVec.xor_zero]

/-- A valid group that is hit becomes invalid. -/
theorem groupWordValid_groupAt_hit {base : Nat} (hbase : base + 24 ≤ 48) {f e : BitVec 48}
    (hf : groupWordValid (groupAt base f) = true) (he : FlipsBits base (base + 24) e) :
    groupWordValid (groupAt base (f ^^^ e)) = false := by
  rw [groupAt_xor]
  exact groupWordValid_flip hf (groupAt_flips_inside hbase he)

/-- A group that is not hit stays as it is. -/
theorem groupWordValid_groupAt_missed {base lo hi : Nat} (hdisjoint : hi ≤ base ∨ base + 24 ≤ lo) (f : BitVec 48)
    {e : BitVec 48} (he : FlipsBits lo hi e) :
    groupWordValid (groupAt base (f ^^^ e)) = groupWordValid (groupAt base f) := by
  rw [groupAt_xor, groupAt_flips_outside hdisjoint he, BitVec.xor_zero]

/-- The frame `g` is `f` with bit `i` flipped, or the bits `i` and `j` of one group (R94). -/
def IsCorruption (f g : BitVec 48) (i j : Fin 48) : Prop :=
  g = f ^^^ 1#48 <<< i.val ∨ (i ≠ j ∧ (i.val < 24 ↔ j.val < 24) ∧ g = f ^^^ 1#48 <<< i.val ^^^ 1#48 <<< j.val)

/-- The flipped bits of R94 lie in the group of bit `i`: the 24 places from `base` on. -/
theorem exists_flipsBits {f g : BitVec 48} {i j : Fin 48} {base : Nat} (hbase : base = 0 ∨ base = 24)
    (hi : base ≤ i.val ∧ i.val < base + 24) (hg : IsCorruption f g i j) :
    ∃ e, g = f ^^^ e ∧ FlipsBits base (base + 24) e := by
  rcases hg with rfl | ⟨hij, hsame, rfl⟩
  · exact ⟨_, rfl, i.val, i.val, hi, hi, .inl rfl⟩
  · exact ⟨_, BitVec.xor_assoc _ _ _, i.val, j.val, hi, by omega, .inr ⟨Fin.val_ne_of_ne hij, rfl⟩⟩

/-- Of the two groups of a valid frame exactly the one with the flipped bits is invalid (R79 item 5). -/
theorem groupWordValid_corrupted {f g : BitVec 48} {i j : Fin 48} (hT : groupWordValid (groupAt 24 f) = true)
    (hH : groupWordValid (groupAt 0 f) = true) (hg : IsCorruption f g i j) :
    groupWordValid (groupAt 24 g) = decide (i.val < 24) ∧ groupWordValid (groupAt 0 g) = decide (24 ≤ i.val) := by
  rcases Nat.lt_or_ge i.val 24 with hi | hi
  · obtain ⟨e, rfl, he⟩ := exists_flipsBits (.inl rfl) (by omega) hg
    rw [groupWordValid_groupAt_hit (by omega) hH he, groupWordValid_groupAt_missed (by omega) f he, hT]
    simp [hi]
  · obtain ⟨e, rfl, he⟩ := exists_flipsBits (.inr rfl) (by omega) hg
    rw [groupWordValid_groupAt_hit (by omega) hT he, groupWordValid_groupAt_missed (by omega) f he, hH]
    simp [hi]

/-- Settles O50: the group that is hit becomes invalid and the other stays valid, so that R93 gives the flags and keeps
the sample. -/
theorem corruptedFrameRejected : Obligations.CorruptedFrameRejected := by
  unfold Obligations.CorruptedFrameRejected
  intro s f g i j rest hs hT hH hg
  obtain ⟨t, hrun, -, -, -, herrT, herrH, hok, hkept⟩ := runSteps_frmRx (g.extractLsb' 40 8) (g.extractLsb' 32 8)
    (g.extractLsb' 24 8) (g.extractLsb' 16 8) (g.extractLsb' 8 8) (g.extractLsb' 0 8) rest hs
  obtain ⟨hvalidT, hvalidH⟩ := groupWordValid_corrupted ((groupWordValid_groupAt 24 f).trans hT)
    ((groupWordValid_groupAt 0 f).trans hH) hg
  rw [groupWordValid_groupAt] at hvalidT hvalidH
  have hrejected : t.ok = false := by
    rw [hok, hvalidT, hvalidH, Bool.and_eq_false_iff, decide_eq_false_iff_not, decide_eq_false_iff_not]
    omega
  refine ⟨t, hrun, hrejected, ?_, ?_, hkept hrejected⟩
  · rw [herrT, hvalidT, ← decide_not, decide_eq_decide]
    omega
  · rw [herrH, hvalidH, ← decide_not, decide_eq_decide]
    omega

end Sys2Proof.Machine

/-! NOP and reset, and where NOPs may stand (42_system_and_host.md R100, R101). -/

namespace Sys2Proof.Machine

/-- NOP leaves every state as it is, a stopped one too (R100). -/
theorem exec_nop (s : State) : exec .nop s = .next s := by
  cases hf : s.fault with
  | true => exact exec_stopped .nop hf
  | false => exact exec_runs hf rfl

/-- Settles O17: NOP's word, its effect and its operand fault. -/
theorem nopResult : Obligations.NopResult := by
  unfold Obligations.NopResult
  exact ⟨rfl, exec_nop, fun s d hf hd => acceptWord_assemble_operand rfl hd hf⟩

/-- Settles O30: the step is `resetBlock` of the state from which the action has been taken. -/
theorem resetWinsAndResetsAll : Obligations.ResetWinsAndResetsAll := by
  unfold Obligations.ResetWinsAndResetsAll
  intro s p rest hp hr
  exact ⟨resetBlock (withPending rest s), (step_inputs hp).trans (acceptInputs_reset _ hr), by simp⟩

/-- A command answers a next state, which depends on the host's later actions only by carrying them on (R7, R128). -/
theorem exec_withPending (i : Instr) (s : State) : ∃ t, ∀ l, exec i (withPending l s) = .next (withPending l t) := by
  cases hf : s.fault with
  | true => exact ⟨s, fun l => exec_stopped i hf⟩
  | false =>
    cases hc : stateFault i s with
    | some c =>
      exact ⟨raiseFault c (encode i) s, fun l => exec_blocked hf ((stateFault_withPending i l s).trans hc)⟩
    | none =>
      refine ⟨effectOf i s, fun l => ?_⟩
      rw [← effectOf_withPending]
      exact exec_runs hf ((stateFault_withPending i l s).trans hc)

/-- The first of several presented commands is one step of `exec`, whether it passes its checks or not. -/
theorem runSteps_present_exec {i : Instr} {s t : State} (h : ∀ l, exec i (withPending l s) = .next (withPending l t))
    (k : Nat) (is : List Instr) (rest : List Inputs) :
    runSteps (k + 1) (withPending (present (i :: is) ++ rest) s) = runSteps k (withPending (present is ++ rest) t) := by
  have hstep : step (withPending (present (i :: is) ++ rest) s) = .next (withPending (present is ++ rest) t) :=
    (step_presentInstr i (present is ++ rest) s).trans (h _)
  rw [runSteps, hstep]

/-- Settles O47, by induction on the list: a NOP in front is a step that changes nothing, any other command is the
same step on both sides. -/
theorem nopsMayStandAnywhere : Obligations.NopsMayStandAnywhere := by
  unfold Obligations.NopsMayStandAnywhere
  intro is rest s
  induction is generalizing s with
  | nil => rfl
  | cons i is ih =>
    by_cases hi : i = .nop
    · rw [List.filter_cons_of_neg (by simpa using hi), ← ih, hi, List.length_cons]
      exact runSteps_present_exec (fun l => exec_nop (withPending l s)) is.length is rest
    · obtain ⟨t, ht⟩ := exec_withPending i s
      rw [List.filter_cons_of_pos (by simpa using hi), List.length_cons, List.length_cons,
        runSteps_present_exec ht, runSteps_present_exec ht, ih]

end Sys2Proof.Machine

/-! The host's contract (42_system_and_host.md R108): where the host stands in its command stream is where the block
stands in its frame, so that every command of a stream that keeps the contract is legal where it arrives. -/

namespace Sys2Proof.Machine

/-- The host's phase after these commands, `none` where one of them breaks the contract. -/
def phaseAfter (p : HostPhase) (is : List Instr) : Option HostPhase := is.foldlM contractStep p

theorem phaseAfter_cons (p : HostPhase) (i : Instr) (is : List Instr) :
    phaseAfter p (i :: is) = (contractStep p i).bind (phaseAfter · is) := rfl

theorem phaseAfter_append (p : HostPhase) (is js : List Instr) :
    phaseAfter p (is ++ js) = (phaseAfter p is).bind (phaseAfter · js) :=
  List.foldlM_append

/-- A stream keeps the contract exactly when it leads to a phase. -/
theorem keepsContract_eq_isSome (p : HostPhase) (is : List Instr) : keepsContract p is = (phaseAfter p is).isSome := by
  induction is generalizing p with
  | nil => rfl
  | cons i is ih =>
    rw [keepsContract, phaseAfter_cons]
    cases contractStep p i with
    | none => rfl
    | some q => exact ih q

/-- The block stands where the host believes it to stand: outside a frame, or in one at this offset (R23, R24). -/
def AtPhase : HostPhase → State → Prop
  | .between _, s => s.active = false
  | .inFrame taken, s => s.active = true ∧ s.idx.val = taken

/-- A command that keeps the contract is legal where it arrives, and block and host move on together. -/
theorem contractStep_legal {p q : HostPhase} {i : Instr} {s : State} (hp : AtPhase p s)
    (h : contractStep p i = some q) : stateFault i s = none ∧ AtPhase q (effectOf i s) := by
  cases p with
  | between message =>
    have ha : s.active = false := hp
    cases i with
    | nop => cases h; exact ⟨rfl, ha⟩
    | crcInit => cases h; exact ⟨crcBlocked_idle ha, ha⟩
    | crcByte d =>
      rw [contractStep] at h
      split at h
      · cases h; exact ⟨crcBlocked_idle ha, ha⟩
      · cases h
    | crcChk d => cases h; exact ⟨crcBlocked_idle ha, ha⟩
    | frmStart => cases h; exact ⟨rfl, rfl, rfl⟩
    | frmByte d => cases h
    | frmAbort => cases h
  | inFrame taken =>
    obtain ⟨ha, hk⟩ := hp
    cases i with
    | nop => cases h; exact ⟨rfl, ha, hk⟩
    | frmByte d =>
      refine ⟨frameBlocked_busy ha, ?_⟩
      rw [contractStep] at h
      rcases takeFrameByte_sequencing d ha with ⟨h5, ha', -⟩ | ⟨hlt, ha', hk'⟩
      · have hlast : ¬taken < 5 := by simp [← hk, h5]
        rw [if_neg hlast] at h
        cases h
        exact ha'
      · rw [if_pos (hk ▸ hlt)] at h
        cases h
        exact ⟨ha', hk'.trans (congrArg (· + 1) hk)⟩
    | frmAbort => cases h; exact ⟨frameBlocked_busy ha, rfl⟩
    | _ => cases h

/-- A stream that keeps the contract runs without a fault, before whatever comes after it. -/
theorem runSteps_contract_append {p q : HostPhase} {is : List Instr} (h : phaseAfter p is = some q) {s : State}
    (hf : s.fault = false) (hp : AtPhase p s) :
    ∃ t, t.fault = false ∧ AtPhase q t ∧ ∀ (k : Nat) (js : List Instr) (rest : List Inputs),
      runSteps (is.length + k) (withPending (present (is ++ js) ++ rest) s) =
        runSteps k (withPending (present js ++ rest) t) := by
  induction is generalizing p s with
  | nil =>
    cases h
    exact ⟨s, hf, hp, fun k js rest => by rw [List.length_nil, Nat.zero_add, List.nil_append]⟩
  | cons i is ih =>
    rw [phaseAfter_cons] at h
    obtain ⟨p', hstep, htail⟩ := Option.bind_eq_some_iff.mp h
    obtain ⟨hlegal, hp'⟩ := contractStep_legal hp hstep
    obtain ⟨t, hft, hq, hrun⟩ := ih htail ((effectOf_fault i s).trans hf) hp'
    refine ⟨t, hft, hq, fun k js rest => ?_⟩
    rw [List.length_cons, Nat.add_right_comm, List.cons_append, runSteps_present_cons hf hlegal, hrun]

/-- A stream that keeps the contract runs without a fault to the phase it leads to. -/
theorem runSteps_contract {p q : HostPhase} {is : List Instr} (h : phaseAfter p is = some q) (rest : List Inputs)
    {s : State} (hf : s.fault = false) (hp : AtPhase p s) :
    ∃ t, runSteps is.length (withPending (present is ++ rest) s) = .next (withPending rest t) ∧
      t.fault = false ∧ AtPhase q t := by
  obtain ⟨t, hft, hq, hrun⟩ := runSteps_contract_append h hf hp
  have hall := hrun 0 [] rest
  rw [List.append_nil] at hall
  exact ⟨t, hall, hft, hq⟩

/-- Settles O52: a stream that keeps the contract leads to some phase, so it runs without a fault. -/
theorem contractPreventsFaults : Obligations.ContractPreventsFaults := by
  unfold Obligations.ContractPreventsFaults
  intro is s message rest hf ha hkeeps
  rw [keepsContract_eq_isSome] at hkeeps
  obtain ⟨q, hq⟩ := Option.isSome_iff_exists.mp hkeeps
  obtain ⟨t, hrun, hft, -⟩ := runSteps_contract hq rest hf ha
  exact ⟨withPending rest t, hrun, hft⟩

end Sys2Proof.Machine

/-! The commands of one attempt and of a readSample keep the host's contract (42_system_and_host.md R103, R106). -/

namespace Sys2Proof.Machine

theorem attemptCommands_delivered (way : HostDriving) (b0 b1 b2 b3 b4 b5 : Byte) :
    attemptCommands way (.delivered b0 b1 b2 b3 b4 b5) = frmRx b0 b1 b2 b3 b4 b5 := by
  cases way <;> rfl

/-- Everything the host can issue for one attempt (R103): nothing, a frame cut short and aborted, or a whole frame. -/
theorem attemptCommands_cases (way : HostDriving) (a : BusAttempt) :
    (completesFrame way a = false ∧ attemptCommands way a = []) ∨
      (completesFrame way a = false ∧ ∃ m : List Byte, m.length < 6 ∧
        attemptCommands way a = .frmStart :: (m.map .frmByte ++ [.frmAbort])) ∨
      (completesFrame way a = true ∧ ∃ m : List Byte, m.length = 6 ∧
        attemptCommands way a = .frmStart :: m.map .frmByte) := by
  cases a with
  | writeError => exact .inl ⟨completesFrame_writeError way, by cases way <;> rfl⟩
  | delivered b0 b1 b2 b3 b4 b5 =>
    exact .inr (.inr ⟨completesFrame_delivered way .., [b0, b1, b2, b3, b4, b5], rfl,
      attemptCommands_delivered way ..⟩)
  | readError got =>
    cases way with
    | blocking => exact .inl ⟨rfl, rfl⟩
    | bytewise =>
      rcases Nat.lt_or_ge got.length 6 with hlt | hge
      · exact .inr (.inl ⟨by simp [completesFrame, hlt], got, hlt,
          by simp [attemptCommands, hlt, List.take_of_length_le hlt.le]⟩)
      · exact .inr (.inr ⟨by simp [completesFrame, hge], got.take 6, by simp [hge],
          by simp [attemptCommands, Nat.not_lt.mpr hge]⟩)

/-- The bytes of a frame keep the contract up to the sixth, which ends the frame (R108 a). -/
theorem phaseAfter_frmBytes (m : List Byte) {taken : Nat} (htaken : taken < 6) (hm : taken + m.length ≤ 6) :
    phaseAfter (.inFrame taken) (m.map .frmByte) =
      some (if taken + m.length < 6 then .inFrame (taken + m.length) else .between false) := by
  induction m generalizing taken with
  | nil => simp [phaseAfter, htaken]
  | cons d m ih =>
    rw [List.length_cons] at hm ⊢
    rw [List.map_cons, phaseAfter_cons, contractStep]
    rcases Nat.lt_or_ge taken 5 with hlt | hge
    · rw [if_pos hlt, Option.bind_some, ih (by omega) (by omega), Nat.add_assoc, Nat.add_comm 1]
    · obtain rfl : m = [] := List.eq_nil_of_length_eq_zero (by omega)
      rw [if_neg (by omega), if_neg (by rw [List.length_nil]; omega)]
      rfl

/-- The commands of one attempt keep the contract and leave no frame open (R103). -/
theorem phaseAfter_attemptCommands (way : HostDriving) (a : BusAttempt) (message : Bool) :
    ∃ message', phaseAfter (.between message) (attemptCommands way a) = some (.between message') := by
  rcases attemptCommands_cases way a with ⟨-, hnone⟩ | ⟨-, m, hm, hcut⟩ | ⟨-, m, hm, hwhole⟩
  · exact ⟨message, by rw [hnone]; rfl⟩
  · refine ⟨false, ?_⟩
    rw [hcut, phaseAfter_cons, contractStep, Option.bind_some, phaseAfter_append,
      phaseAfter_frmBytes m (by omega) (by omega), if_pos (by omega)]
    rfl
  · refine ⟨false, ?_⟩
    rw [hwhole, phaseAfter_cons, contractStep, Option.bind_some, phaseAfter_frmBytes m (by omega) (by omega),
      if_neg (by omega)]

/-- So do the commands of several attempts, one after another. -/
theorem phaseAfter_attempts (way : HostDriving) (made : List BusAttempt) (message : Bool) :
    ∃ message', phaseAfter (.between message) (made.flatMap (attemptCommands way)) = some (.between message') := by
  induction made generalizing message with
  | nil => exact ⟨message, rfl⟩
  | cons a made ih =>
    obtain ⟨afterFirst, hfirst⟩ := phaseAfter_attemptCommands way a message
    obtain ⟨afterAll, hrest⟩ := ih afterFirst
    exact ⟨afterAll, by rw [List.flatMap_cons, phaseAfter_append, hfirst, Option.bind_some, hrest]⟩

/-- Settles O51: the commands of an attempt keep the contract from outside a frame to outside a frame. -/
theorem attemptNeverFaults : Obligations.AttemptNeverFaults := by
  unfold Obligations.AttemptNeverFaults
  intro way a s rest hf ha
  obtain ⟨message, hphase⟩ := phaseAfter_attemptCommands way a false
  obtain ⟨t, hrun, hft, hat⟩ := runSteps_contract hphase rest hf ha
  exact ⟨withPending rest t, hrun, hft, hat, rfl⟩

end Sys2Proof.Machine

/-! The attempts of one readSample (42_system_and_host.md R103, R106, 70_reset_and_hazards.md R148). -/

namespace Sys2Proof.Machine

/-- What can complete a frame, and does: a read without an error, or for a bytewise host one whose error comes with
the sixth byte or later (R103). -/
theorem completesFrame_iff {way : HostDriving} {a : BusAttempt} : completesFrame way a = true ↔
    transportOk a = true ∨ (way = .bytewise ∧ ∃ got, a = .readError got ∧ 6 ≤ got.length) := by
  refine ⟨completesFrame_cases, ?_⟩
  rintro (hok | ⟨hway, got, rfl, hgot⟩)
  · exact completesFrame_of_transportOk way hok
  · exact (completesFrame_readError way got).mpr ⟨hway, hgot⟩

/-- The attempts made are the first ones of the bus (R106). -/
theorem attemptsMade_isPrefix (way : HostDriving) (n : Nat) (bus : List BusAttempt) : attemptsMade way n bus <+: bus := by
  induction bus generalizing n with
  | nil => simp
  | cons a rest ih =>
    cases n with
    | zero => simp
    | succ n =>
      cases ha : completesFrame way a with
      | true => rw [attemptsMade_last n rest ha]; exact ⟨rest, rfl⟩
      | false => rw [attemptsMade_retry n rest ha]; exact List.cons_prefix_cons.mpr ⟨rfl, ih n⟩

/-- Either the last attempt made completed a frame, or none did and the loop went on as long as it may (R103 step 5,
R106). In both cases no attempt before the last one completed a frame. -/
theorem attemptsMade_cases (way : HostDriving) (n : Nat) (bus : List BusAttempt) :
    (∃ before a, attemptsMade way n bus = before ++ [a] ∧ completesFrame way a = true ∧ before.length < n ∧
        ∀ b ∈ before, completesFrame way b = false) ∨
      ((attemptsMade way n bus).length = min n bus.length ∧
        ∀ b ∈ attemptsMade way n bus, completesFrame way b = false) := by
  induction bus generalizing n with
  | nil => simp
  | cons a rest ih =>
    cases n with
    | zero => simp
    | succ n =>
      cases ha : completesFrame way a with
      | true => exact .inl ⟨[], a, attemptsMade_last n rest ha, ha, by simp, by simp⟩
      | false =>
        rw [attemptsMade_retry n rest ha]
        rcases ih n with ⟨before, c, hmade, hc, hlen, hbefore⟩ | ⟨hlen, hall⟩
        · exact .inl ⟨a :: before, c, by rw [hmade]; rfl, hc, by simpa using hlen,
            List.forall_mem_cons.mpr ⟨ha, hbefore⟩⟩
        · exact .inr ⟨by simp [hlen, Nat.succ_min_succ], List.forall_mem_cons.mpr ⟨ha, hall⟩⟩

theorem length_attemptsMade_le (way : HostDriving) (n : Nat) (bus : List BusAttempt) :
    (attemptsMade way n bus).length ≤ n := by
  rcases attemptsMade_cases way n bus with ⟨before, a, hmade, -, hlen, -⟩ | ⟨hlen, -⟩
  · rw [hmade, List.length_append, List.length_singleton]
    omega
  · omega

/-- No attempt before the last one completed a frame (R148). -/
theorem completesFrame_eq_false_of_mem_dropLast {way : HostDriving} {n : Nat} {bus : List BusAttempt}
    {b : BusAttempt} (hb : b ∈ (attemptsMade way n bus).dropLast) : completesFrame way b = false := by
  rcases attemptsMade_cases way n bus with ⟨before, a, hmade, -, -, hbefore⟩ | ⟨-, hall⟩
  · rw [hmade, List.dropLast_concat] at hb
    exact hbefore b hb
  · exact hall b (List.mem_of_mem_dropLast hb)

/-- An attempt that another one follows completed no frame (R148). -/
theorem completesFrame_eq_false_of_followed {way : HostDriving} {n : Nat} {bus before after : List BusAttempt}
    (hmade : attemptsMade way n bus = before ++ after) (hafter : after ≠ []) {b : BusAttempt} (hb : b ∈ before) :
    completesFrame way b = false := by
  refine completesFrame_eq_false_of_mem_dropLast (n := n) (bus := bus) ?_
  rw [hmade, List.dropLast_append_of_ne_nil hafter]
  exact List.mem_append_left _ hb

/-- An attempt that completes a frame is the last one made (R148). -/
theorem attemptsMade_ends {way : HostDriving} {n : Nat} {bus before after : List BusAttempt} {a : BusAttempt}
    (hmade : attemptsMade way n bus = before ++ a :: after) (ha : completesFrame way a = true) : after = [] := by
  by_contra hafter
  rw [List.append_cons] at hmade
  have hnot := completesFrame_eq_false_of_followed hmade hafter (b := a) (by simp)
  exact nomatch hnot.symm.trans ha

theorem transportOk_eq_false_of_completesFrame {way : HostDriving} {a : BusAttempt}
    (ha : completesFrame way a = false) :
    transportOk a = false := by
  cases hok : transportOk a with
  | false => rfl
  | true => exact nomatch ha.symm.trans (completesFrame_of_transportOk way hok)

/-- An attempt starts at most one frame (R103). -/
theorem count_frmStart_attemptCommands_le (way : HostDriving) (a : BusAttempt) :
    (attemptCommands way a).count .frmStart ≤ 1 := by
  have hbytes (m : List Byte) : (m.map Instr.frmByte).count .frmStart = 0 := List.count_eq_zero.mpr (by simp)
  rcases attemptCommands_cases way a with ⟨-, hcmds⟩ | ⟨-, m, -, hcmds⟩ | ⟨-, m, -, hcmds⟩
  · simp [hcmds]
  · simp [hcmds, hbytes]
  · simp [hcmds, hbytes]

theorem count_frmStart_readSampleCommands_le (way : HostDriving) (n : Nat) (bus : List BusAttempt) :
    (readSampleCommands way n bus).count .frmStart ≤ (attemptsMade way n bus).length := by
  rw [readSampleCommands, List.count_flatMap]
  refine (List.sum_le_card_nsmul _ 1 ?_).trans (by simp)
  simpa using fun a _ => count_frmStart_attemptCommands_le way a

/-- Only an attempt that completes a frame issues the commands of a whole one: every other frame is aborted. -/
theorem completesFrame_of_attemptCommands {way : HostDriving} {a : BusAttempt} {b0 b1 b2 b3 b4 b5 : Byte}
    (h : attemptCommands way a = frmRx b0 b1 b2 b3 b4 b5) : completesFrame way a = true := by
  rcases attemptCommands_cases way a with ⟨-, hnone⟩ | ⟨-, m, -, hcut⟩ | ⟨hdone, -⟩
  · exact nomatch hnone.symm.trans h
  · have hmem : Instr.frmAbort ∈ frmRx b0 b1 b2 b3 b4 b5 := by rw [← h, hcut]; simp
    simp [frmRx] at hmem
  · exact hdone

/-- Settles O53: the loop ends with the attempt that completes a frame, or goes on as long as it may. -/
theorem retryBounded : Obligations.RetryBounded := by
  unfold Obligations.RetryBounded
  intro way n bus
  refine ⟨length_attemptsMade_le way n bus, attemptsMade_isPrefix way n bus,
    (count_frmStart_readSampleCommands_le way n bus).trans (length_attemptsMade_le way n bus),
    fun before after a hmade => ⟨fun hends => ⟨?last, fun b hb => ?before⟩, ?whole⟩, ?goesOn⟩
  case last => exact attemptsMade_ends hmade (completesFrame_iff.mpr hends)
  case before =>
    have hnot := completesFrame_eq_false_of_followed hmade (List.cons_ne_nil a after) hb
    exact transportOk_eq_false_of_completesFrame hnot
  case whole =>
    rintro ⟨b0, b1, b2, b3, b4, b5, hcmds⟩
    exact attemptsMade_ends hmade (completesFrame_of_attemptCommands hcmds)
  case goesOn =>
    rcases attemptsMade_cases way n bus with ⟨before, a, hmade, ha, -⟩ | ⟨hlen, -⟩
    · exact .inl ⟨before, a, hmade, completesFrame_iff.mp ha⟩
    · exact .inr hlen

end Sys2Proof.Machine

/-! What a whole readSample returns (42_system_and_host.md R103, R106, R107, 41_frame_receiver.md R95). -/

namespace Sys2Proof.Machine

/-- A frame is reported as stopped exactly when the FAULT bit is set (R95). -/
theorem frameReport_eq_stopped_iff (status : BitVec 8) : frameReport status = .stopped ↔ status.getLsbD 7 = true := by
  cases hfault : status.getLsbD 7 with
  | true => simp [frameReport, hfault]
  | false =>
    simp only [frameReport, hfault, Bool.false_eq_true, if_false]
    split_ifs <;> simp

theorem frameReport_running {s : State} (hf : s.fault = false) : frameReport (outputs s).status ≠ .stopped := by
  obtain ⟨-, -, -, -, -, -, -, hfault⟩ := statusByteBits s
  rw [Ne, frameReport_eq_stopped_iff, hfault, hf]
  exact Bool.false_ne_true

section
variable {way : HostDriving} {n : Nat} {bus : List BusAttempt} {status : BitVec 8}

/-- A stopped block is never a success (R95, R128). -/
theorem readSampleResult_stopped (h : frameReport status = .stopped) :
    readSampleResult way n bus status = .noCounterpart := by
  simp [readSampleResult, h]

/-- An attempt without a transport error returns what its frame's report says (R103 step 4). -/
theorem readSampleResult_ok {a : BusAttempt} (h : frameReport status ≠ .stopped) (ha : a ∈ attemptsMade way n bus)
    (hok : transportOk a = true) : readSampleResult way n bus status = reportReturn (frameReport status) := by
  have hany : (attemptsMade way n bus).any transportOk = true := List.any_eq_true.mpr ⟨a, ha, hok⟩
  simp [readSampleResult, h, hany]

/-- Without such an attempt the host's own count decides, and not the status byte (R103 step 5). -/
theorem readSampleResult_failed (h : frameReport status ≠ .stopped)
    (hfail : ∀ a ∈ attemptsMade way n bus, transportOk a = false) :
    readSampleResult way n bus status =
      if (attemptsMade way n bus).any (completesFrame way) || (attemptsMade way n bus).length == n then .value false
      else .notYetReturned := by
  have hany : (attemptsMade way n bus).any transportOk = false := by simpa using hfail
  simp [readSampleResult, h, hany]

end

/-- A complete frame: the report of its groups, and the sample when both are valid (R93, R95). -/
theorem runSteps_frmRx_reported (b0 b1 b2 b3 b4 b5 : Byte) (rest : List Inputs) {s : State} (hf : s.fault = false) :
    ∃ t, runSteps 7 (withPending (present (frmRx b0 b1 b2 b3 b4 b5) ++ rest) s) = .next t ∧
      reportReturn (frameReport (outputs t).status) = .value (groupValid b0 b1 b2 && groupValid b3 b4 b5) ∧
      (groupValid b0 b1 b2 = true → groupValid b3 b4 b5 = true →
        t.rawT = rawWord b0 b1 ∧ t.rawH = rawWord b3 b4 ∧ t.sampleValid = true) := by
  obtain ⟨reported, -⟩ := statusReportsFrame
  obtain ⟨t, hrun, -, hreturn⟩ := reported s b0 b1 b2 b3 b4 b5 rest hf
  refine ⟨t, hrun, hreturn, fun hT hH => ?_⟩
  obtain rfl := Host.Outcome.next.inj (hrun.symm.trans (frameFunction s b0 b1 b2 b3 b4 b5 rest hf))
  have hpass : (decide (crc8 [b0, b1] = b2) && decide (crc8 [b3, b4] = b5)) = true :=
    Bool.and_eq_true_iff.mpr ⟨hT, hH⟩
  exact ⟨if_pos hpass, if_pos hpass, congrArg (· || s.sampleValid) hpass⟩

/-- Settles O56: the attempts keep the contract, the frame of an attempt without a transport error is reported as O54
says, and otherwise the attempts made decide. -/
theorem readSampleReturns : Obligations.ReadSampleReturns := by
  unfold Obligations.ReadSampleReturns
  refine ⟨fun way n bus s rest hf ha => ?_,
    fun way n bus status hfault => readSampleResult_stopped ((frameReport_eq_stopped_iff status).mpr hfault)⟩
  obtain ⟨message, hphase⟩ := phaseAfter_attempts way (attemptsMade way n bus) false
  obtain ⟨t, hrun, hft, hat⟩ := runSteps_contract hphase rest hf ha
  have hruns : frameReport (outputs (withPending rest t)).status ≠ .stopped := frameReport_running hft
  refine ⟨withPending rest t, hrun, hft, hat, rfl, fun before b0 b1 b2 b3 b4 b5 hmade => ?delivered,
    fun hfail hends => ?ended, fun hfail hlen hopen => ?unfinished⟩
  case delivered =>
    obtain ⟨messageBefore, hphaseBefore⟩ := phaseAfter_attempts way before false
    obtain ⟨u, hfu, -, hbefore⟩ := runSteps_contract_append hphaseBefore hf ha
    rw [hmade, List.flatMap_append, List.flatMap_singleton, attemptCommands_delivered, List.length_append,
      hbefore] at hrun
    obtain ⟨t', hframe, hreturn, hsample⟩ := runSteps_frmRx_reported b0 b1 b2 b3 b4 b5 rest hfu
    obtain rfl := Host.Outcome.next.inj (hframe.symm.trans hrun)
    exact ⟨(readSampleResult_ok hruns (hmade ▸ List.mem_concat_self) rfl).trans hreturn, hsample⟩
  case ended =>
    rw [readSampleResult_failed hruns hfail, if_pos]
    rcases hends with hlen | ⟨got, hgot, hway, hsix⟩
    · simp [hlen]
    · have hany : (attemptsMade way n bus).any (completesFrame way) = true :=
        List.any_eq_true.mpr ⟨_, hgot, (completesFrame_readError way got).mpr ⟨hway, hsix⟩⟩
      rw [hany, Bool.true_or]
  case unfinished =>
    have hnone : (attemptsMade way n bus).any (completesFrame way) = false := by
      rw [List.any_eq_false]
      intro a hmem hdone
      rcases completesFrame_cases hdone with hok | ⟨hway, got, rfl, hsix⟩
      · exact nomatch (hfail a hmem).symm.trans hok
      · exact absurd (hopen got hmem hway) (Nat.not_lt.mpr hsix)
    rw [readSampleResult_failed hruns hfail, hnone, Bool.false_or, if_neg (by simpa using hlen)]

end Sys2Proof.Machine

/-! The order of checks of one step, fault entry, fail-stop, and where each command is legal (60_exceptions.md R116 to
R121, R128). -/

namespace Sys2Proof.Machine

/-! ### The state check against the legality table -/

/-- The state check passes a command exactly where the table of R116 calls it legal. -/
theorem stateFault_eq_none_iff {i : Instr} {s : State} : stateFault i s = none ↔ legal i s = true := by
  cases i with
  | nop | frmStart => exact iff_of_true rfl rfl
  | crcInit | crcByte _ | crcChk _ => exact crcBlocked_eq_none.trans (by simp [legal])
  | frmByte _ | frmAbort => exact frameBlocked_eq_none

theorem faultCodeBits_stateFault {i : Instr} {s : State} {c : FaultCode} (h : stateFault i s = some c) :
    faultCodeBits c = if s.active then 3#3 else 4#3 := by
  rcases stateFault_cases h with ⟨rfl, ha⟩ | ⟨rfl, ha⟩
  · simp [ha, faultCodeBits]
  · simp [ha, faultCodeBits]

/-- Settles O37: a command that runs is legal and touches no fault, and one that is blocked is not legal and records
the code of its state check. -/
theorem legalityTable : Obligations.LegalityTable := by
  unfold Obligations.LegalityTable
  intro i s t hf h
  rcases exec_cases h with ⟨hstopped, -⟩ | ⟨c, -, hc, rfl⟩ | ⟨-, hn, rfl⟩
  · exact nomatch hf.symm.trans hstopped
  · refine ⟨fun hlegal => ?_, fun _ => ⟨rfl, faultCodeBits_stateFault hc⟩⟩
    exact nomatch hc.symm.trans (stateFault_eq_none_iff.mpr hlegal)
  · refine ⟨fun _ => (effectOf_fault i s).trans hf, fun hillegal => ?_⟩
    exact nomatch hillegal.symm.trans (stateFault_eq_none_iff.mp hn)

/-! ### Fault entry -/

/-- A word that takes a fault is recorded whole, and `raiseFault` is all that happens (R117, R118). -/
theorem acceptWord_faulted {w : Cmd} {s t : State} (hf : s.fault = false) (h : acceptWord w s = .next t)
    (ht : t.fault = true) : ∃ c, c ≠ .noFault ∧ t = raiseFault c w s := by
  rcases acceptWord_cases h with ⟨hstopped, -⟩ | ⟨e, -, -, rfl⟩ | ⟨i, c, -, hd, hc, rfl⟩ | ⟨i, -, -, -, rfl⟩
  · exact nomatch hf.symm.trans hstopped
  · exact ⟨illegalCode e, illegalCode_ne_noFault e, rfl⟩
  · exact ⟨c, stateFault_ne_noFault hc, by rw [encode_of_decode hd]⟩
  · exact nomatch hf.symm.trans ((effectOf_fault i s).symm.trans ht)

/-- Settles O34: a faulting word is one `raiseFault`. -/
theorem faultEntryFrame : Obligations.FaultEntryFrame := by
  unfold Obligations.FaultEntryFrame
  intro s t w hf h ht
  obtain ⟨c, hc, rfl⟩ := acceptWord_faulted hf h ht
  exact ⟨rfl, hc⟩

/-! ### Fail-stop -/

theorem withPending_self (s : State) : withPending s.pending s = s := rfl

/-- A stopped block takes the host's next action without a change, unless it is a reset (R119, R120). -/
theorem step_stopped {s : State} (hf : s.fault = true) (hr : resetNext s = false) :
    step s = .next (withPending s.pending.tail s) := by
  cases hp : s.pending with
  | nil => rw [List.tail_nil, step_idle hp, ← hp, withPending_self]
  | cons p rest =>
    have hrst : p.rst = false := by simpa [resetNext, hp] using hr
    rw [step_inputs hp, List.tail_cons]
    cases hv : p.cmdValid with
    | false => exact acceptInputs_idle _ hrst hv
    | true => exact (acceptInputs_word _ hrst hv).trans (acceptWord_stopped p.cmd hf)

theorem resetNext_eq_false {s : State} (h : ∀ p ∈ s.pending, p.rst = false) : resetNext s = false := by
  cases hp : s.pending with
  | nil => simp [resetNext, hp]
  | cons p rest => simpa [resetNext, hp] using h p (by simp [hp])

/-- Without a reset, `k` steps of a stopped block take `k` host actions and change nothing else (R119). -/
theorem runSteps_stopped (k : Nat) {s : State} (hf : s.fault = true) (hr : ∀ p ∈ s.pending, p.rst = false) :
    runSteps k s = .next (withPending (s.pending.drop k) s) := by
  induction k generalizing s with
  | zero => rfl
  | succ k ih =>
    have htail : ∀ p ∈ s.pending.tail, p.rst = false := fun p hp => hr p (List.mem_of_mem_tail hp)
    rw [runSteps, step_stopped hf (resetNext_eq_false hr), ← List.drop_tail]
    exact ih (s := withPending s.pending.tail s) hf htail

/-- Settles O35, by induction on the number of steps; the host's actions are on no port. -/
theorem failStop : Obligations.FailStop := by
  unfold Obligations.FailStop
  exact ⟨fun s w hf => acceptWord_stopped w hf, fun s i hf => exec_stopped i hf,
    fun k s hf hr => ⟨runSteps_stopped k hf hr, rfl⟩⟩

/-- Settles O36: without a reset, the step of a stopped block only takes the host's action. -/
theorem faultLeftOnlyByReset : Obligations.FaultLeftOnlyByReset := by
  unfold Obligations.FaultLeftOnlyByReset
  intro s t hf h hr
  obtain rfl := Host.Outcome.next.inj ((step_stopped hf hr).symm.trans h)
  exact ⟨hf, rfl, rfl⟩

/-! ### The order of checks -/

/-- Without a reset, a valid command word is accepted (R32, R121). -/
theorem step_word {s : State} {p : Inputs} {rest : List Inputs} (hp : s.pending = p :: rest) (hr : p.rst = false)
    (hv : p.cmdValid = true) : step s = acceptWord p.cmd (withPending rest s) :=
  (step_inputs hp).trans (acceptInputs_word _ hr hv)

/-- Settles O25: a presented word is accepted, and a word that decodes runs its command. -/
theorem stepRunsDecodedCommand : Obligations.StepRunsDecodedCommand := by
  unfold Obligations.StepRunsDecodedCommand
  intro s w i rest hp hw
  exact (step_word hp rfl rfl).trans (acceptWord_command hw)

/-- A command that is not legal where its word is accepted takes its state fault, with that word (R116, R117). -/
theorem acceptWord_blocked {w : Cmd} {i : Instr} {c : FaultCode} {s : State} (hw : w = encode i)
    (hf : s.fault = false) (hc : stateFault i s = some c) : acceptWord w s = .next (raiseFault c w s) := by
  subst hw
  exact (acceptWord_command (decode_encode i)).trans (exec_blocked hf hc)

/-- Settles O27: reset first, then fail-stop, then the decode faults, then the state check of the decoded command. -/
theorem stepOrderOfChecks : Obligations.StepOrderOfChecks := by
  unfold Obligations.StepOrderOfChecks
  intro s p rest hp
  refine ⟨fun hr => ?reset, fun hr hv => ?word⟩
  case reset =>
    exact ⟨resetBlock (withPending rest s), (step_inputs hp).trans (acceptInputs_reset _ hr), rfl, rfl⟩
  case word =>
    rw [step_word hp hr hv]
    refine ⟨fun hf => acceptWord_stopped p.cmd hf, fun hf => ?_⟩
    have hfault : (withPending rest s).fault = false := hf
    refine ⟨fun hop => ?opcode, fun hz hd => ?operand, fun hw ha => ?crcBusy, fun hw ha => ?frmIdle,
      fun i hw hlegal => ?legal⟩
    case opcode => exact acceptWord_illegal hfault (decode_error_opcode_iff.mpr hop)
    case operand => exact acceptWord_illegal hfault (decode_error_operand_iff.mpr ⟨hz, hd⟩)
    case crcBusy =>
      have hbusy : crcBlocked (withPending rest s) = some .crcBusy := crcBlocked_busy ha
      rcases hw with hw | ⟨d, hw⟩ | ⟨d, hw⟩
      all_goals exact acceptWord_blocked hw hfault hbusy
    case frmIdle =>
      have hidle : frameBlocked (withPending rest s) = some .frmIdle := frameBlocked_idle ha
      rcases hw with ⟨d, hw⟩ | hw
      all_goals exact acceptWord_blocked hw hfault hidle
    case legal =>
      have hnone : stateFault i (withPending rest s) = none := by simpa [stateFault_eq_none_iff] using hlegal
      have hrun : exec i (withPending rest s) = .next (effectOf i (withPending rest s)) := exec_runs hfault hnone
      rw [hw, acceptWord_command (decode_encode i)]
      exact ⟨effectOf i (withPending rest s), hrun, hrun, (effectOf_fault i _).trans hfault⟩

/-! ### Totality -/

theorem exec_total (i : Instr) (s : State) : ∃ t, exec i s = .next t := by
  obtain ⟨t, ht⟩ := exec_withPending i s
  exact ⟨withPending s.pending t, ht s.pending⟩

theorem acceptWord_total (w : Cmd) (s : State) : ∃ t, acceptWord w s = .next t := by
  cases hw : decode w with
  | ok i => rw [acceptWord_command hw]; exact exec_total i s
  | error e =>
    cases hf : s.fault with
    | true => exact ⟨s, acceptWord_stopped w hf⟩
    | false => exact ⟨raiseFault (illegalCode e) w s, acceptWord_illegal hf hw⟩

/-- Settles O29: every check of R121 that ends a step ends it with a next state, and so does every command. -/
theorem everyStepAnswersNext : Obligations.EveryStepAnswersNext := by
  unfold Obligations.EveryStepAnswersNext
  refine ⟨fun s => ?_, exec_total⟩
  cases hp : s.pending with
  | nil => exact ⟨s, step_idle hp⟩
  | cons p rest =>
    cases hr : p.rst with
    | true => exact ⟨resetBlock (withPending rest s), (step_inputs hp).trans (acceptInputs_reset _ hr)⟩
    | false =>
      cases hv : p.cmdValid with
      | false => exact ⟨withPending rest s, (step_inputs hp).trans (acceptInputs_idle _ hr hv)⟩
      | true => rw [step_word hp hr hv]; exact acceptWord_total p.cmd (withPending rest s)

end Sys2Proof.Machine

/-! The state and the ports right after reset (70_reset_and_hazards.md R136). -/

namespace Sys2Proof.Machine

/-- The status port reads zero exactly where all eight flags are clear (R30). -/
theorem status_eq_zero_iff (s : State) : (outputs s).status = 0x00#8 ↔
    s.active = false ∧ s.done = false ∧ s.ok = false ∧ s.errT = false ∧ s.errH = false ∧ s.errAbort = false ∧
      s.sampleValid = false ∧ s.fault = false := by
  obtain ⟨hactive, hdone, hok, herrT, herrH, habort, hvalid, hfault⟩ := statusByteBits s
  rw [← hactive, ← hdone, ← hok, ← herrT, ← herrH, ← habort, ← hvalid, ← hfault]
  constructor
  · intro hzero
    simp [hzero]
  · rintro ⟨h0, h1, h2, h3, h4, h5, h6, h7⟩
    refine BitVec.eq_of_getLsbD_eq fun i hi => ?_
    interval_cases i <;> simpa

/-- Settles O31: the elements are those of the reset state, no flag of the status port is set, and the other ports are
copies of elements. -/
theorem stateAfterReset : Obligations.StateAfterReset := by
  unfold Obligations.StateAfterReset
  have hstatus : (outputs State.reset).status = 0x00#8 :=
    (status_eq_zero_iff State.reset).mpr ⟨rfl, rfl, rfl, rfl, rfl, rfl, rfl, rfl⟩
  refine ⟨?elements, hstatus, ?copies⟩
  case elements => simp [State.reset]
  case copies => exact ⟨rfl, rfl, rfl, rfl, rfl⟩

end Sys2Proof.Machine

/-! The listed words of the decoding vectors (95_test_vectors.md section 2). -/

namespace Sys2Proof

/-- A word decodes to the command that it is the word of (R58, R65). -/
theorem decode_of_encode {w : Cmd} {i : Instr} (h : encode i = w) : decode w = .ok i := by
  rw [← h, decode_encode]

/-- Settles O2: each legal word is the word of its command, 4 and F are reserved opcodes (R59), and 001 and A80 have a
Z-format opcode before a non-zero operand field (R60). -/
theorem decodeSampleWords : Obligations.DecodeSampleWords := by
  unfold Obligations.DecodeSampleWords
  refine ⟨decode_of_encode ?nop, decode_of_encode ?crcInit, decode_of_encode ?crcByte, decode_of_encode ?crcChk,
    decode_of_encode ?frmStart, decode_of_encode ?frmByte, decode_of_encode ?frmAbort,
    decode_error_opcode_iff.mpr ?opcode4, decode_error_opcode_iff.mpr ?opcodeF,
    decode_error_operand_iff.mpr ?operandOfNop, decode_error_operand_iff.mpr ?operandOfAbort⟩
  case nop | crcInit | crcByte | crcChk | frmStart | frmByte | frmAbort => rfl
  case opcode4 | opcodeF => rfl
  case operandOfNop | operandOfAbort => decide

end Sys2Proof
